-- ==== Sys2Proof/Word.lean ====
section
/-! DEFINITION. The words of the serial line and of the retention array: bytes and the 16-bit frame check. -/

namespace Sys2Proof

/-- One byte of a frame or of a record (R178, R101). -/
abbrev Byte := BitVec 8

/-- The 16-bit running check of a frame (R180). -/
abbrev Check := BitVec 16

/-- The byte that holds a number of 0 to 255 (a larger number keeps its low eight bits). -/
abbrev byte (n : Nat) : Byte := BitVec.ofNat 8 n

end Sys2Proof
end

