-- ==== Sys2Proof/Syntax.lean ====
section
/-! DEFINITION. The commands of the part: one constructor per row of spec/opcode_table.json, with the row's operands. -/

namespace Sys2Proof

/-- The two pockets (Conventions). -/
inductive Pocket where
  | a
  | b
deriving DecidableEq, Repr

/-- What has become of an area of the retention array since it was last written or read, as its check code will
tell (R98): nothing, one further bit lost, two further bits lost (or a whole pattern gone), or an error of more bits
that reads as the given content, with or without a correction. -/
inductive Decay (α : Type) where
  | none
  | oneBit
  | twoBits
  | wide (reads : α) (corrected : Bool)
deriving DecidableEq, Repr

/-- What a write that did not leave what was written has left (R110, R150): the old content, the new content (with
one bit wrong when a read-back found it so), or a pattern that no check code corrects. -/
inductive Left where
  | old
  | new
  | pattern
deriving DecidableEq, Repr

/-- The outcome of a write's read-back (R110): every bit equal, or a mismatch and what the area holds. -/
inductive ReadBack where
  | matched
  | mismatched (left : Left)
deriving DecidableEq, Repr

/-- The receive errors that are found at the byte that shows them (R181). -/
inductive ByteError where
  | lead
  | length
  | framing
deriving DecidableEq, Repr

/-- The commands. The first seventeen are the messages of the serial link, each carried by a frame that passes the
receive checks (log entry 1): the frame's TAG, then the payload fields as they stand on the line, in the order of
their payload table. The others are the events of the line, of the clock, of the pins, of the supplies and of the
retention array. -/
inductive Instr where
  /-- STATUS (R190). -/
  | status (tag : Byte)
  /-- OPEN_CYCLE (R4, R6). -/
  | openCycle (tag : Byte) (pocket setpoint maxStages loadClass coolLen period tumble limit paid : Nat)
  /-- PAY (R4, R11). -/
  | pay (tag : Byte) (pocket amount : Nat)
  /-- TELEMETRY (R4, R13). -/
  | telemetry (tag : Byte) (pocket exhaust : Nat) (inlet : Int)
  /-- HEAT (R4, R15). -/
  | heat (tag : Byte) (pocket level : Nat)
  /-- PHASE with action END_HEAT (R17). -/
  | endHeat (tag : Byte) (pocket : Nat)
  /-- PHASE with action PAUSE (R18). -/
  | pause (tag : Byte) (pocket : Nat)
  /-- PHASE with action RESUME (R18). -/
  | resume (tag : Byte) (pocket : Nat)
  /-- PHASE with action STOP (R19). -/
  | stop (tag : Byte) (pocket : Nat)
  /-- CLEAR_LIMIT (R57). -/
  | clearLimit (tag : Byte) (pocket : Nat)
  /-- PLAN_QUERY (R167). -/
  | planQuery (tag : Byte) (pocket : Nat)
  /-- PLAN_ADOPT (R168). -/
  | planAdopt (tag : Byte) (pocket : Nat)
  /-- PLAN_DISCARD (R173). -/
  | planDiscard (tag : Byte) (pocket : Nat)
  /-- JOURNAL_READ (R119). -/
  | journalRead (tag : Byte) (first count : Nat)
  /-- SETTINGS_READ (R197). -/
  | settingsRead (tag : Byte)
  /-- SETTINGS_WRITE with its pairs of a key code and a value (R198). -/
  | settingsWrite (tag : Byte) (pairs : List (Nat × Nat))
  /-- RESTART (R153). -/
  | restart (tag : Byte)
  /-- RXD has been low for 11 bit times; `arrived` are the bytes that came since the last event of the line (R177). -/
  | breakDetected (arrived : List Byte)
  /-- More than 4 ms passed inside a frame (R181). -/
  | gapTimeout
  /-- Bytes after the break, the last of them the frame's last CHECK byte (R179). -/
  | frameReceived (bytes : List Byte)
  /-- The frame being sent has left TXD (R183). -/
  | frameSent
  /-- The pocket's paid accumulator completes a second (R9). -/
  | paidSecond (p : Pocket)
  /-- The pocket's elapsed accumulator completes a second (R33). -/
  | anticreaseSecond (p : Pocket)
  /-- The pocket's periodic count reaches CKPT_INTERVAL (R25). -/
  | periodicCheckpoint (p : Pocket)
  /-- The filtered DOOR_x opens (R20, R45). -/
  | doorOpen (p : Pocket)
  /-- The filtered DOOR_x closes (R45, R48). -/
  | doorClose (p : Pocket)
  /-- The filtered LIM_x trips (R55). -/
  | limitTrip (p : Pocket)
  /-- The filtered LIM_x returns intact (R45). -/
  | limitIntact (p : Pocket)
  /-- The filtered AIR_x breaks (R52). -/
  | airflowBreak (p : Pocket)
  /-- The filtered AIR_x makes (R52). -/
  | airflowMake (p : Pocket)
  /-- The proving count reaches 3 s (R52). -/
  | airflowProven (p : Pocket)
  /-- The airflow timer reaches 30 s (R54). -/
  | airflowFault (p : Pocket)
  /-- GUARD_LIMIT seconds have passed since the entry to HELD (R58). -/
  | heldTumbleEnd (p : Pocket)
  /-- The guard-tumble timer reaches GUARD_LIMIT (R59). -/
  | guardTumbleEnd (p : Pocket)
  /-- The silence timer expires (R62). -/
  | silenceExpiry
  /-- The stagger timer reaches STAGGER (R68). -/
  | staggerElapsed
  /-- A ZCIN edge: the time since the reference edge in microseconds, the crest of the half-cycle in percent of
  nominal (R79), and whether the holdup rail stands above the write floor at that moment (R97, log entry 6). -/
  | mainsEdge (elapsedUs crest : Nat) (rail : Bool)
  /-- 150 %, 250 % or a later multiple of the half-period has passed with no edge (R79). -/
  | missingEdge (rail : Bool)
  /-- The sag timer reaches SAG_LOSS_S (R82, R86). -/
  | sagLoss (rail : Bool)
  /-- A whole period of the stall oscillator passes (R89). -/
  | stallTick
  /-- The reserve reaches its ready level (R96). -/
  | reserveReady
  /-- The reserve falls below its ready level (R96). -/
  | reserveLow
  /-- The reserve falls below the reserve floor (R95). -/
  | reserveFloorLoss
  /-- The reserve is back at or above the reserve floor (R95). -/
  | reserveFloorRestored
  /-- The holdup rail collapses; `torn` is what a write in flight leaves (R150). -/
  | holdupCollapse (torn : Left)
  /-- The main domain powers up after its supply had failed (R200). -/
  | mainSupplyPowerUp
  /-- RESET_N is asserted; `torn` is what a write in flight leaves (R150, R155). -/
  | resetNAssert (torn : Left)
  /-- RESET_N is released (R200). -/
  | resetNRelease
  /-- The read of the settings area ends (R196). -/
  | settingsLoadDone (decay : Decay (List Nat))
  /-- The scan's read of the retirement map ends (R126). -/
  | scanMapReadDone (decay : Decay (List Nat))
  /-- The scan's read of one slot ends (R127). -/
  | scanSlotReadDone (decay : Decay (List Byte))
  /-- A record attempt's read-back ends (R110). -/
  | recordAttemptDone (back : ReadBack) (rail : Bool)
  /-- A retirement map write's read-back ends (R113). -/
  | mapWriteDone (back : ReadBack) (rail : Bool)
  /-- The read-back of an ERASED write ends (R123). -/
  | eraseTestDone (back : ReadBack) (rail : Bool)
  /-- The read-back of a relocation copy ends (R124). -/
  | relocationCopyDone (back : ReadBack) (rail : Bool)
  /-- The read-back of a settings area write ends (R199). -/
  | settingsWriteDone (back : ReadBack) (rail : Bool)
  /-- A read-out slot read ends (R120). -/
  | readoutReadDone (decay : Decay (List Byte)) (rail : Bool)
  /-- The scrub step timer reaches 2 s (R137). -/
  | scrubStepDue
  /-- A scrub step's slot read ends (R138). -/
  | scrubReadDone (decay : Decay (List Byte)) (rail : Bool)
  /-- RXD returns high after a break (R177). -/
  | breakEnd
  /-- A LEAD, LENGTH or FRAMING error is found at the byte that shows it (R181). -/
  | receiveErrorFound (error : ByteError)
deriving DecidableEq, Repr

end Sys2Proof
end

