-- ==== Sys2Proof/Decode.lean ====
section
/-! DEFINITION. The words of the command table. The part has no instruction words: no row of spec/opcode_table.json
gives bits, so no word spells a command. (The frames of the serial link, which do carry the messages as bytes, are
read in Machine/Operands.lean and Machine/Receiver.lean.) -/

namespace Sys2Proof

/-- The command that a word of `nbits` bits spells: none, since the table gives no row any bits (log entry 8). -/
def decodeTableWord (_nbits _w : Nat) : Option Instr := none

end Sys2Proof
end

