-- ==== Sys2Proof/Config.lean ====
section
/-! DEFINITION. What one part fixes and the manual leaves open, and the constants the manual gives by name. -/

namespace Sys2Proof

/-- FREE VALUE (log entry 11). Where in its tolerance band this part's stall oscillator runs. The manual gives
1 Hz within ±5 % (R89) and no more. -/
opaque Config.stallOscillator : Nat

/-- One period of the stall oscillator in milliseconds: any whole number from 953 to 1052, which is 1 Hz within
±5 % (R89). Only the idle step uses it; a STALL_TICK command is one whole period whatever it lasted. -/
def Config.stallPeriodMs : Nat := 953 + Config.stallOscillator % 100

/-- FREE VALUE (log entry 6). Whether the holdup rail stands above the write floor at an event whose row does not carry
it, by how many such events came before. The manual has the rail compared afresh at each capture write (R97) and gives no
rule for the rail itself. -/
opaque Config.railAnswer : Nat → Bool

/-- The number of record slots of the retention array (R98). -/
def Config.slotCount : Nat := 96

/-- The retired count at which the journal enters WORN (R117). -/
def Config.wornAt : Nat := 32

/-- The highest stamp (R103). -/
def Config.lastStamp : Nat := 4294967295

/-- The count at which a stall timer is saturated (R89). -/
def Config.stallMax : Nat := 1048575

/-- The largest paid remaining, in seconds (R9). -/
def Config.paidMax : Nat := 21600

/-- The largest value of the 16-bit counts (R14, R32, R142). -/
def Config.countMax : Nat := 65535

/-- The device revision that a STATUS reply reports (R191). -/
def Config.revision : Nat := 1

end Sys2Proof
end

