-- ==== Sys2Proof/Machine/State.lean ====
section
/-! DEFINITION. The state of the part, as plain data, and its state after reset. INVENTORY.md lists every field with
the rule that names it. -/

namespace Sys2Proof.Machine

/-- One value per pocket. -/
structure Pair (α : Type) where
  a : α
  b : α
deriving DecidableEq, Repr

/-! ## Cycles (R1 to R31) -/

/-- The two phases that a paused pocket returns to (R18). -/
inductive RunPhase where
  | heat
  | cool
deriving DecidableEq, Repr

/-- The reasons of HELD (Pocket States). -/
inductive HeldReason where
  | limit
  | airflow
  | stale
  | orphan
  | faultAtLoss
deriving DecidableEq, Repr

/-- The reasons of CLOSING (Pocket States). -/
inductive CloseReason where
  | door
  | limitEnd
  | anticreaseNone
  | stop
  | discard
deriving DecidableEq, Repr

/-- The pocket states. -/
inductive PocketState where
  | free
  | opening
  | heat
  | cool
  | anticrease
  | paused (ret : RunPhase)
  | pending
  | adopting
  | held (reason : HeldReason)
  | closing (reason : CloseReason)
deriving DecidableEq, Repr

/-- The load classes (R4). -/
inductive LoadClass where
  | light
  | normal
  | heavy
deriving DecidableEq, Repr

/-- A cycle's programme (The Programme). -/
structure Programme where
  setpoint : Nat
  maxStages : Nat
  loadClass : LoadClass
  coolLen : Nat
  period : Nat
  tumble : Nat
  limit : Nat
  initialPaid : Nat
deriving DecidableEq, Repr

/-- The phase of a progress body and of a resume context (R24, R30). -/
inductive LossPhase where
  | heat
  | cool
  | anticrease
  | paused (ret : RunPhase)
  | held (reason : HeldReason)
deriving DecidableEq, Repr

/-- A progress body (R24). -/
structure Progress where
  phase : LossPhase
  paid : Nat
  elapsed : Nat
  exhaust : Nat
  inlet : Int
  stale : Bool
  motorOn : Bool
  stagesOn : Nat
  latched : Bool
  trips : Nat
  level : Nat
deriving DecidableEq, Repr

/-- A loss snapshot (R27). -/
structure Snapshot where
  body : Progress
  programme : Option Programme
  cycleStamp : Nat
deriving DecidableEq, Repr

/-- The mark of a resume context (R30). -/
inductive Mark where
  | none
  | orphan
  | faultAtLoss
deriving DecidableEq, Repr

/-- The stall source of a resume context (R30). -/
inductive StallSource where
  | timer
  | unbounded
deriving DecidableEq, Repr

/-- A resume context (R30). -/
structure Context where
  source : Nat
  cycleStamp : Nat
  phase : LossPhase
  paid : Nat
  elapsed : Nat
  exhaust : Option Nat
  inlet : Int
  trips : Nat
  programme : Option Programme
  stallSource : StallSource
  mark : Mark
deriving DecidableEq, Repr

/-- A Pocket Tracker. Times are in milliseconds. `exhaust` is none until a TELEMETRY stores one; `held` is the time
since the entry to HELD while the cooling tumble is wanted (R58); `newestStamp` is the stamp of the pocket's last
completed record, 0 when the pocket has none (R115). -/
structure Tracker where
  state : PocketState
  programme : Option Programme
  cycleStamp : Nat
  newestStamp : Nat
  paid : Nat
  paidAcc : Nat
  level : Nat
  trips : Nat
  doorNote : Bool
  exhaust : Option Nat
  inlet : Int
  age : Nat
  periodic : Nat
  held : Option Nat
  context : Option Context
  snapshot : Option Snapshot
deriving DecidableEq, Repr

/-- The tumble state of an Anti-Crease Scheduler. -/
inductive Tumble where
  | rest
  | due
  | running
deriving DecidableEq, Repr

/-- An Anti-Crease Scheduler (Schedule State). `acc` is the elapsed accumulator in milliseconds. -/
structure Schedule where
  elapsed : Nat
  acc : Nat
  boundary : Option Nat
  tumble : Tumble
  tumbleEnd : Option Nat
  skipped : Nat
deriving DecidableEq, Repr

/-! ## Outputs (R45 to R63) -/

/-- The filtered levels of a pocket's sensing inputs (R45). -/
structure Lines where
  doorOpen : Bool
  limTripped : Bool
  airMade : Bool
deriving DecidableEq, Repr

/-- The airflow states (Airflow). -/
inductive Airflow where
  | off
  | proving
  | proven
  | unmade
  | timing
deriving DecidableEq, Repr

/-- One pocket's part of the Output Stage Unit. Counts and timers are in milliseconds; `guard` is the guard-tumble
timer while it runs. -/
structure Outputs where
  motor : Bool
  stage1 : Bool
  stage2 : Bool
  latch : Bool
  airflow : Airflow
  proving : Nat
  airTimer : Nat
  guard : Option Nat
deriving DecidableEq, Repr

/-- The silence timer (R61): `left` is the time to its expiry in milliseconds while it runs. -/
structure Silence where
  armed : Bool
  left : Option Nat
  silent : Bool
deriving DecidableEq, Repr

/-! ## The Current Arbiter (R64 to R78) -/

/-- What the arbiter grants. -/
inductive Item where
  | motor
  | stage1
  | stage2
deriving DecidableEq, Repr

/-- An entry of the arbiter queue or of the granted set. -/
structure Load where
  pocket : Pocket
  item : Item
deriving DecidableEq, Repr

/-- The arbiter. `granted` is in the order of the grants, oldest first; `stagger` is the time since the last grant in
milliseconds, none when the timer is ELAPSED. -/
structure Arbiter where
  queue : List Load
  granted : List Load
  stagger : Option Nat
deriving DecidableEq, Repr

/-! ## Mains and reserve (R79 to R97) -/

/-- The mains states. -/
inductive MainsState where
  | present
  | sag
  | faltering
  | lost
  | qualifying
deriving DecidableEq, Repr

/-- The Mains Monitor. `prior` is kept through FALTERING (true for SAG); `sag` is the sag timer in milliseconds while
it runs; `hasRef` tells whether there is a reference edge; `counted` is how many missing edges have been counted by
time since it; `halfUs` is the nominal half-period of the running interval in microseconds. -/
structure Mains where
  state : MainsState
  priorSag : Bool
  missing : Nat
  qual : Nat
  lowRun : Nat
  recoveryRun : Nat
  sag : Option Nat
  hasRef : Bool
  counted : Nat
  halfUs : Nat
  returnOwed : Bool
deriving DecidableEq, Repr

/-- The origin of a stall timer (Stall Timers). -/
inductive Origin where
  | provisional
  | firm
deriving DecidableEq, Repr

/-- A stall timer. `phase` is the position within one oscillator period in milliseconds. -/
structure StallTimer where
  running : Bool
  count : Nat
  origin : Origin
  phase : Nat
deriving DecidableEq, Repr

/-- The start-cause flags (R200). -/
structure Causes where
  cold : Bool
  ret : Bool
  pin : Bool
  restart : Bool
deriving DecidableEq, Repr

/-- The level of the reserve on RSV: below the reserve floor, below the ready level, or at or above it. -/
inductive ReserveLevel where
  | belowFloor
  | belowReady
  | ready
deriving DecidableEq, Repr

/-- The always-on domain (Always-On State), and the level of the reserve that feeds it. The reserve state of the
Supply Supervisor is read from these two (R96). -/
structure AlwaysOn where
  timers : Pair StallTimer
  active : Pair Bool
  causes : Causes
  marker : Bool
  reserve : ReserveLevel
deriving DecidableEq, Repr

/-! ## The retention array and its records (R98 to R122) -/

/-- What the check code of an area will find at a read (R98, log entry 4). -/
inductive Integrity where
  | sound
  | oneBit
  | unreadable
deriving DecidableEq, Repr

/-- One area of the array: its content and what its check code will find. -/
structure Area (α : Type) where
  content : α
  integrity : Integrity
deriving DecidableEq, Repr

/-- What a read of a slot keeps: the 26 record bytes (R98). -/
abbrev Slot := Area (List Byte)

/-- The Retention Array: the slots that do not stand as delivered, in rising order; the retirement map, as the list
of the slots it marks; the settings area, as its 22 values in key order (R98, R196). -/
structure RetentionArray where
  slots : List (Nat × Slot)
  map : Area (List Nat)
  settings : Area (List Nat)
deriving DecidableEq, Repr

/-- The plan kinds (R101). -/
inductive PlanKind where
  | resumeHeat
  | resumeCool
  | resumeAnticrease
  | resumePaused
  | finish
  | holdStale
  | holdOrphan
  | holdFault
deriving DecidableEq, Repr

/-- A plan and its figures (R166). `phase` is the phase the plan leads to, none for FINISH; `close` is the close
reason of a FINISH plan. -/
structure Plan where
  kind : PlanKind
  phase : Option LossPhase
  loadTemp : Int
  decayed : Nat
  credit : Nat
  paid : Nat
  position : Nat
  recovery : Bool
  stall : Option Nat
  source : Nat
  close : CloseReason
deriving DecidableEq, Repr

/-- The reasons of a CHECKPOINT (R24). -/
inductive CheckpointReason where
  | periodic
  | phase
  | pay
  | limit
  | pause
  | rideThrough
  | reemit
deriving DecidableEq, Repr

/-- The reasons of a LOSS and of a capture (R101, R143). -/
inductive LossReason where
  | mains
  | sag
  | restart
deriving DecidableEq, Repr

/-- What a record request carries (R102): the figures its body is filled from. -/
inductive RecordData where
  | openCycle (programme : Programme) (reemit : Bool)
  | checkpoint (reason : CheckpointReason) (body : Progress)
  | loss (reason : LossReason) (body : Progress)
  | adopt (plan : Plan) (exhaust : Option Nat) (inlet : Int) (trips : Nat) (latched : Bool)
  | close (reason : CloseReason) (paid elapsed : Nat)
deriving DecidableEq, Repr

/-- A record request (R107). -/
structure Request where
  pocket : Pocket
  data : RecordData
deriving DecidableEq, Repr

/-- A record attempt in flight (R110): the request, its retry count, the stamp it took, its target and the 26 bytes
written. -/
structure Attempt where
  req : Request
  retry : Nat
  stamp : Nat
  slot : Nat
  bytes : List Byte
deriving DecidableEq, Repr

/-- A relocation copy in flight (R124). -/
structure Copying where
  original : Nat
  target : Nat
  bytes : List Byte
  retry : Nat
deriving DecidableEq, Repr

/-- The finding that led to an erase test (R123). -/
inductive Finding where
  | corrected
  | torn
  | duplicate
deriving DecidableEq, Repr

/-- The operation of the Journal Writer in flight (R106). A read-out read is `live` while the stream that asked for it
runs. -/
inductive Operation where
  | idle
  | settingsLoad
  | scanMapRead
  | scanRead (slot : Nat)
  | record (attempt : Attempt)
  | mapWrite (second : Bool)
  | erase (slot : Nat) (finding : Finding)
  | copy (copying : Copying)
  | scrubRead (slot : Nat)
  | readoutRead (slot : Nat) (live : Bool)
  | settingsWrite (second : Bool)
deriving DecidableEq, Repr

/-- Whose work a repair is: the recovery scan's, a patrol step's or a demand scrub's. -/
inductive JobOwner where
  | scan
  | patrol
  | demand
deriving DecidableEq, Repr

/-- What a repair still has to do when its operation in flight, and any map write after it, has ended: a read, a copy
attempt with its retry count, an erase test, the erase test of a copied original, or nothing. -/
inductive JobNext where
  | readSlot
  | copy (bytes : List Byte) (retry : Nat)
  | erase (finding : Finding)
  | eraseOriginal
  | finish
deriving DecidableEq, Repr

/-- A scrub step or a repair of the scan in progress: its owner, the slot it works on and what it still has to do. -/
structure Job where
  owner : JobOwner
  slot : Nat
  next : JobNext
deriving DecidableEq, Repr

/-- One pocket's part of the protection index, with the writer's cycle stamp of the pocket (R100, R104). -/
structure Protection where
  newest : Option Nat
  openSlot : Option Nat
  cycleStamp : Nat
deriving DecidableEq, Repr

/-- What a demand scrub is owed for (R121); a VALID record read with a correction is kept as it was read, for its copy. -/
inductive DemandFinding where
  | validCorrected (bytes : List Byte)
  | erasedCorrected
  | torn
deriving DecidableEq, Repr

/-- An owed demand scrub (R121). `own` while the stream that found it runs. -/
structure Demand where
  slot : Nat
  finding : DemandFinding
  own : Bool
deriving DecidableEq, Repr

/-- The map write that is still to be made: none, the first write after a marking, or the second after a mismatch
(R113). -/
inductive MapDue where
  | no
  | first
  | second
deriving DecidableEq, Repr

/-- The Journal Writer. `carried` is the record between two of its attempts, with its retry count (R111, R143);
`counter` is the stamp counter, none when it is EXHAUSTED (R103); `retired` is the working retired set in rising
order (R112); `readAsked` and `settingsAsked` are the requests of the link and of the Settings Store that wait
(R106). -/
structure Writer where
  op : Operation
  queue : List Request
  carried : Option (Request × Nat)
  mapDue : MapDue
  job : Option Job
  counter : Option Nat
  cursor : Nat
  protection : Pair Protection
  retired : List Nat
  worn : Bool
  mapLost : Bool
  soft : Nat
  hard : Nat
  lost : Nat
  readAsked : Option Nat
  settingsAsked : Bool
  demands : List Demand
deriving DecidableEq, Repr

/-- The capture states (Capture State). -/
inductive CaptureState where
  | none
  | finishing
  | writing
  | standing
  | stopped
deriving DecidableEq, Repr

/-- An entry of the LOSS list (R146). Its rank is read from the phase of its body. -/
structure LossEntry where
  pocket : Pocket
  reason : LossReason
  cycleStamp : Nat
  body : Progress
deriving DecidableEq, Repr

/-- The capture (Capture State). `ended` is the model's own: the RESTART reply has been released and the reset is
awaited (R154, log entry 16). -/
structure Capture where
  state : CaptureState
  reason : Option LossReason
  window : Bool
  restart : Bool
  losses : List LossEntry
  written : Nat
  notWritten : Nat
  ended : Bool
deriving DecidableEq, Repr

/-! ## Scan and scrub (R123 to R142) -/

/-- The scan phases; LOADING is the settings load that comes before phase MAP (R125, R196). -/
inductive ScanPhase where
  | loading
  | map
  | pass
  | resolve
  | index
  | repair
  | done
deriving DecidableEq, Repr

/-- The condition of a slot, as a read finds it (R99). -/
inductive Condition where
  | valid
  | erased
  | torn
  | retired
deriving DecidableEq, Repr

/-- One entry of the slot summary: the condition recorded and, for a VALID slot, its record bytes and whether the read
made a correction. -/
structure SlotNote where
  slot : Nat
  condition : Condition
  bytes : List Byte
  corrected : Bool
deriving DecidableEq, Repr

/-- One pocket's scan index (R129). -/
structure ScanIndex where
  newest : Option Nat
  openSlot : Option Nat
deriving DecidableEq, Repr

/-- The Recovery Scan. `erasures` are the duplicates that phase RESOLVE still has to erase (R128). -/
structure Scan where
  phase : ScanPhase
  cursor : Nat
  summary : List SlotNote
  repairs : List Nat
  erasures : List Nat
  index : Pair ScanIndex
deriving DecidableEq, Repr

/-- The Scrub Unit (Patrol Scrub). The step timer is in milliseconds. -/
structure Scrub where
  cursor : Nat
  timer : Nat
  asked : Bool
  unfinished : Option Nat
deriving DecidableEq, Repr

/-! ## The serial link (R176 to R194) -/

/-- The receiver states (Receiving a Frame). -/
inductive Receiver where
  | hunt
  | breaking
  | lead
  | header
  | body
deriving DecidableEq, Repr

/-- The six link error counters (R182). -/
structure Counters where
  framing : Nat
  check : Nat
  gap : Nat
  length : Nat
  lead : Nat
  overrun : Nat
deriving DecidableEq, Repr

/-- A frame of the transmit list. `demand` is the demand scrub owed once this stream frame has been sent (R121);
`restart` marks the RESTART reply whose last byte brings the reset (R154). -/
structure TxFrame where
  kind : Byte
  tag : Byte
  payload : List Byte
  stream : Bool
  demand : Option Demand
  restart : Bool
deriving DecidableEq, Repr

/-- What a message in flight waits for (R186). A settings write keeps how many pairs were applied and the index of the
first invalid pair. -/
inductive Awaited where
  | opened (p : Pocket)
  | stopped (p : Pocket)
  | adopted (p : Pocket)
  | discarded (p : Pocket)
  | settings (applied : Nat) (bad : Option Nat)
  | restart
deriving DecidableEq, Repr

/-- The in-flight record (R186). -/
structure InFlight where
  kind : Byte
  tag : Byte
  awaits : Awaited
deriving DecidableEq, Repr

/-- A read-out stream (R188): the request's TAG, the next slot, the request's count and the frames still to send. -/
structure Stream where
  tag : Byte
  cursor : Nat
  total : Nat
  left : Nat
deriving DecidableEq, Repr

/-- The Serial Link Unit. -/
structure Link where
  receiver : Receiver
  buffer : List Byte
  check : Check
  counters : Counters
  sending : Option TxFrame
  waiting : List TxFrame
  inFlight : Option InFlight
  stream : Option Stream
deriving DecidableEq, Repr

/-! ## Settings (R195 to R199) -/

/-- The working settings table (R195). ABANDON is held in seconds. -/
structure Settings where
  mainsHz : Nat
  missN : Nat
  qualN : Nat
  sagPct : Nat
  lossPct : Nat
  returnPct : Nat
  sagLossS : Nat
  ckptInterval : Nat
  teleStale : Nat
  silence : Nat
  guardLimit : Nat
  hazard : Nat
  halfLight : Nat
  halfNormal : Nat
  halfHeavy : Nat
  rewarmRate : Nat
  creditCap : Nat
  abandon : Nat
  budget : Nat
  stageI : Nat
  motorI : Nat
  stagger : Nat
deriving DecidableEq, Repr

/-! ## The whole part -/

/-- The supply and reset condition of the main domain (R155, R200): it runs when it is powered and RESET_N is not
asserted. -/
structure Supply where
  powered : Bool
  resetHeld : Bool
deriving DecidableEq, Repr

/-- The state of the part. `pending` is the queue of the commands that wait (the model's own); `rail` tells whether
the holdup rail stood above the write floor when it was last told (R97); `railAsks` counts the events that have taken
the free value of the rail (the model's own, log entry 6). -/
structure State where
  pending : List Instr
  supply : Supply
  lines : Pair Lines
  rail : Bool
  railAsks : Nat
  trackers : Pair Tracker
  frozen : Bool
  schedules : Pair Schedule
  outputs : Pair Outputs
  silence : Silence
  arbiter : Arbiter
  mains : Mains
  alwaysOn : AlwaysOn
  array : RetentionArray
  writer : Writer
  capture : Capture
  scan : Scan
  scrub : Scrub
  link : Link
  settings : Settings
  defaulted : Bool
deriving DecidableEq, Repr

/-- Why the part stops: never. The manual gives every command an effect or none at all, so the type has no
constructor. -/
inductive Fault where
deriving DecidableEq, Repr

/-- Why a command has no meaning. -/
inductive Refusal where
  /-- Raised by an arm of `exec` whose command the model does not model; safe (the run stops). No arm raises it. -/
  | notModelled (mnemonic : String)
deriving DecidableEq, Repr

/-! ## Starting values -/

/-- A tracker at a main-domain start (R1). The telemetry age is at its maximum. -/
def Tracker.start : Tracker where
  state := .free
  programme := none
  cycleStamp := 0
  newestStamp := 0
  paid := 0
  paidAcc := 0
  level := 0
  trips := 0
  doorNote := false
  exhaust := none
  inlet := 20
  age := 65535000
  periodic := 0
  held := none
  context := none
  snapshot := none

/-- A scheduler at a main-domain start (Schedule State). -/
def Schedule.start : Schedule where
  elapsed := 0
  acc := 0
  boundary := none
  tumble := .rest
  tumbleEnd := none
  skipped := 0

/-- One pocket's outputs at a main-domain start (R46). -/
def Outputs.start : Outputs where
  motor := false
  stage1 := false
  stage2 := false
  latch := false
  airflow := .off
  proving := 0
  airTimer := 0
  guard := none

/-- The silence timer at a main-domain start (R61). -/
def Silence.start : Silence where
  armed := false
  left := none
  silent := false

/-- The arbiter at a main-domain start (R64). -/
def Arbiter.start : Arbiter where
  queue := []
  granted := []
  stagger := none

/-- The Mains Monitor at a main-domain start (R80), timing its first interval with the default MAINS_HZ (R196). -/
def Mains.start : Mains where
  state := .qualifying
  priorSag := false
  missing := 0
  qual := 0
  lowRun := 0
  recoveryRun := 0
  sag := none
  hasRef := false
  counted := 0
  halfUs := 10000
  returnOwed := true

/-- A stall timer after a cold start (Stall Timers). -/
def StallTimer.cold : StallTimer where
  running := false
  count := 0
  origin := .firm
  phase := 0

/-- A pocket's empty protection entries. -/
def Protection.empty : Protection where
  newest := none
  openSlot := none
  cycleStamp := 0

/-- The writer as it stands while the main domain is stopped, and at a main-domain start before its first operation
(R107, R112, R142; log entry 23). -/
def Writer.start : Writer where
  op := .idle
  queue := []
  carried := none
  mapDue := .no
  job := none
  counter := some 1
  cursor := 95
  protection := ⟨Protection.empty, Protection.empty⟩
  retired := []
  worn := false
  mapLost := false
  soft := 0
  hard := 0
  lost := 0
  readAsked := none
  settingsAsked := false
  demands := []

/-- The capture at a main-domain start (R143). -/
def Capture.start : Capture where
  state := .none
  reason := none
  window := false
  restart := false
  losses := []
  written := 0
  notWritten := 0
  ended := false

/-- The scan at a main-domain start (R125, R196). -/
def Scan.start : Scan where
  phase := .loading
  cursor := 0
  summary := []
  repairs := []
  erasures := []
  index := ⟨⟨none, none⟩, ⟨none, none⟩⟩

/-- The Scrub Unit at a main-domain start (R136). -/
def Scrub.start : Scrub where
  cursor := 0
  timer := 0
  asked := false
  unfinished := none

/-- The link at a main-domain start (R193). -/
def Link.start : Link where
  receiver := .hunt
  buffer := []
  check := 0xFFFF
  counters := ⟨0, 0, 0, 0, 0, 0⟩
  sending := none
  waiting := []
  inFlight := none
  stream := none

/-- The default settings (R195). -/
def Settings.default : Settings where
  mainsHz := 50
  missN := 3
  qualN := 100
  sagPct := 85
  lossPct := 60
  returnPct := 80
  sagLossS := 3
  ckptInterval := 30
  teleStale := 60
  silence := 5
  guardLimit := 300
  hazard := 55
  halfLight := 600
  halfNormal := 900
  halfHeavy := 1500
  rewarmRate := 12
  creditCap := 600
  abandon := 14400
  budget := 300
  stageI := 110
  motorI := 30
  stagger := 2

/-- The Retention Array as delivered (R98, R196): every slot ERASED, no slot marked, the default settings. -/
def RetentionArray.delivered : RetentionArray where
  slots := []
  map := ⟨[], .sound⟩
  settings :=
    ⟨[50, 3, 100, 85, 60, 80, 3, 30, 60, 5, 300, 55, 600, 900, 1500, 12, 600, 1440, 300, 110, 30, 2], .sound⟩

/-- The sensing inputs at reset: door closed, thermostat intact, no airflow (log entry 7). -/
def Lines.reset : Lines where
  doorOpen := false
  limTripped := false
  airMade := false

/-- The always-on domain after a COLD start (R95, R200, R201), the reserve charging above its floor (log entry 7). -/
def AlwaysOn.cold : AlwaysOn where
  timers := ⟨StallTimer.cold, StallTimer.cold⟩
  active := ⟨false, false⟩
  causes := ⟨true, false, false, false⟩
  marker := false
  reserve := .belowReady

/-- The part right after its first start: a COLD start with the array as delivered, the writer reading the settings
area (R196, R201; log entry 7). -/
def State.reset : State where
  pending := []
  supply := ⟨true, false⟩
  lines := ⟨Lines.reset, Lines.reset⟩
  rail := true
  railAsks := 0
  trackers := ⟨Tracker.start, Tracker.start⟩
  frozen := false
  schedules := ⟨Schedule.start, Schedule.start⟩
  outputs := ⟨Outputs.start, Outputs.start⟩
  silence := Silence.start
  arbiter := Arbiter.start
  mains := Mains.start
  alwaysOn := AlwaysOn.cold
  array := RetentionArray.delivered
  writer := { Writer.start with op := .settingsLoad }
  capture := Capture.start
  scan := Scan.start
  scrub := Scrub.start
  link := Link.start
  settings := Settings.default
  defaulted := false

end Sys2Proof.Machine
end

