-- ==== Sys2Proof/Machine/Ops.lean ====
section
/-! DEFINITION. The named operations over the state: one value per pocket, one setter per field, and the reads and
writes of the retention array. -/

namespace Sys2Proof.Machine

/-! ## One value per pocket -/

/-- The pocket's value. -/
def Pair.get {α : Type} (v : Pair α) : Pocket → α
  | .a => v.a
  | .b => v.b

/-- The pair with the pocket's value replaced. -/
def Pair.set {α : Type} (v : Pair α) (p : Pocket) (x : α) : Pair α :=
  match p with
  | .a => { v with a := x }
  | .b => { v with b := x }

/-- The pair with the pocket's value changed by `f`. -/
def Pair.modify {α : Type} (v : Pair α) (p : Pocket) (f : α → α) : Pair α := v.set p (f (v.get p))

/-- The pocket index 0 or 1 of a message or record (Conventions). -/
def pocketIndex : Pocket → Nat
  | .a => 0
  | .b => 1

/-- The pocket that an index names, if it names one. -/
def pocketOf : Nat → Option Pocket
  | 0 => some .a
  | 1 => some .b
  | _ => none

/-! ## The fields of the state -/

/-- The state with `pending` replaced. -/
def State.setPending (v : List Instr) (s : State) : State := { s with pending := v }

/-- The state with `supply` replaced. -/
def State.setSupply (v : Supply) (s : State) : State := { s with supply := v }

/-- The state with `lines` replaced. -/
def State.setLines (v : Pair Lines) (s : State) : State := { s with lines := v }

/-- The state with `rail` replaced. -/
def State.setRail (v : Bool) (s : State) : State := { s with rail := v }

/-- The state with `railAsks` replaced. -/
def State.setRailAsks (v : Nat) (s : State) : State := { s with railAsks := v }

/-- The state with `trackers` replaced. -/
def State.setTrackers (v : Pair Tracker) (s : State) : State := { s with trackers := v }

/-- The state with `frozen` replaced. -/
def State.setFrozen (v : Bool) (s : State) : State := { s with frozen := v }

/-- The state with `schedules` replaced. -/
def State.setSchedules (v : Pair Schedule) (s : State) : State := { s with schedules := v }

/-- The state with `outputs` replaced. -/
def State.setOutputs (v : Pair Outputs) (s : State) : State := { s with outputs := v }

/-- The state with `silence` replaced. -/
def State.setSilence (v : Silence) (s : State) : State := { s with silence := v }

/-- The state with `arbiter` replaced. -/
def State.setArbiter (v : Arbiter) (s : State) : State := { s with arbiter := v }

/-- The state with `mains` replaced. -/
def State.setMains (v : Mains) (s : State) : State := { s with mains := v }

/-- The state with `alwaysOn` replaced. -/
def State.setAlwaysOn (v : AlwaysOn) (s : State) : State := { s with alwaysOn := v }

/-- The state with `array` replaced. -/
def State.setArray (v : RetentionArray) (s : State) : State := { s with array := v }

/-- The state with `writer` replaced. -/
def State.setWriter (v : Writer) (s : State) : State := { s with writer := v }

/-- The state with `capture` replaced. -/
def State.setCapture (v : Capture) (s : State) : State := { s with capture := v }

/-- The state with `scan` replaced. -/
def State.setScan (v : Scan) (s : State) : State := { s with scan := v }

/-- The state with `scrub` replaced. -/
def State.setScrub (v : Scrub) (s : State) : State := { s with scrub := v }

/-- The state with `link` replaced. -/
def State.setLink (v : Link) (s : State) : State := { s with link := v }

/-- The state with `settings` replaced. -/
def State.setSettings (v : Settings) (s : State) : State := { s with settings := v }

/-- The state with `defaulted` replaced. -/
def State.setDefaulted (v : Bool) (s : State) : State := { s with defaulted := v }

/-- The pocket's tracker. -/
def State.tracker (s : State) (p : Pocket) : Tracker := s.trackers.get p

/-- The pocket's scheduler. -/
def State.schedule (s : State) (p : Pocket) : Schedule := s.schedules.get p

/-- The pocket's outputs. -/
def State.output (s : State) (p : Pocket) : Outputs := s.outputs.get p

/-- The filtered levels of the pocket's inputs. -/
def State.line (s : State) (p : Pocket) : Lines := s.lines.get p

/-- The pocket's stall timer. -/
def State.stall (s : State) (p : Pocket) : StallTimer := s.alwaysOn.timers.get p

/-- The state with the pocket's tracker changed. -/
def State.modTracker (p : Pocket) (f : Tracker → Tracker) (s : State) : State :=
  s.setTrackers (s.trackers.modify p f)

/-- The state with the pocket's scheduler changed. -/
def State.modSchedule (p : Pocket) (f : Schedule → Schedule) (s : State) : State :=
  s.setSchedules (s.schedules.modify p f)

/-- The state with the pocket's outputs changed. -/
def State.modOutput (p : Pocket) (f : Outputs → Outputs) (s : State) : State :=
  s.setOutputs (s.outputs.modify p f)

/-- The state with the pocket's input levels changed. -/
def State.modLine (p : Pocket) (f : Lines → Lines) (s : State) : State :=
  s.setLines (s.lines.modify p f)

/-- The state with the pocket's stall timer changed. -/
def State.modStall (p : Pocket) (f : StallTimer → StallTimer) (s : State) : State :=
  s.setAlwaysOn { s.alwaysOn with timers := s.alwaysOn.timers.modify p f }

/-- The state with the pocket's active flag written (R2, R94). -/
def State.setActive (p : Pocket) (v : Bool) (s : State) : State :=
  s.setAlwaysOn { s.alwaysOn with active := s.alwaysOn.active.set p v }

/-- The main domain runs: it is powered and RESET_N is not asserted (R155). -/
def State.on (s : State) : Bool := s.supply.powered && !s.supply.resetHeld

/-- The rail at an event whose row does not carry it and at which a capture write can start: a free value, taken afresh at
each (R97; log entry 6). -/
def senseRail (s : State) : State := (s.setRail (Config.railAnswer s.railAsks)).setRailAsks (s.railAsks + 1)

/-- Do `f` for pocket A and then for pocket B. -/
def forPockets (f : Pocket → State → State) (s : State) : State := f .b (f .a s)

/-- A count that stops at `top` once it is reached. -/
def raise (top n : Nat) : Nat := min top (n + 1)

/-! ## The retention array (R98) -/

/-- The 26 bytes of an ERASED record (R100). -/
def erasedBytes : List Byte := 0x0E :: List.replicate 25 0

/-- What a slot that no entry of the list names holds: an ERASED record, as delivered (R98). -/
def deliveredSlot : Slot := ⟨erasedBytes, .sound⟩

/-- What a slot holds. -/
def readCell : List (Nat × Slot) → Nat → Slot
  | [], _ => deliveredSlot
  | (k, v) :: rest, i => if k = i then v else readCell rest i

/-- The list with a slot written; a slot written as delivered is not listed. -/
def writeCell : List (Nat × Slot) → Nat → Slot → List (Nat × Slot)
  | [], i, v => if v = deliveredSlot then [] else [(i, v)]
  | (k, w) :: rest, i, v =>
    if i < k then (if v = deliveredSlot then (k, w) :: rest else (i, v) :: (k, w) :: rest)
    else if i = k then (if v = deliveredSlot then rest else (i, v) :: rest)
    else (k, w) :: writeCell rest i v

/-- The canonical form from `low` on: slot numbers strictly rising and below 96, no slot listed as delivered. -/
def cellsFrom (low : Nat) : List (Nat × Slot) → Bool
  | [] => true
  | (k, v) :: rest =>
    decide (low ≤ k) && decide (k < Config.slotCount) && decide (v ≠ deliveredSlot) && cellsFrom (k + 1) rest

/-- The array's list of slots is in its one canonical form. -/
def RetentionArray.wf (r : RetentionArray) : Bool := cellsFrom 0 r.slots

/-- What the slot holds. -/
def State.slot (s : State) (i : Nat) : Slot := readCell s.array.slots i

/-- The array with a slot written; there is no slot above 95. -/
def RetentionArray.setSlot (i : Nat) (v : Slot) (r : RetentionArray) : RetentionArray :=
  if i < Config.slotCount then { r with slots := writeCell r.slots i v } else r

/-- The state with a slot of the array written. -/
def State.setSlot (i : Nat) (v : Slot) (s : State) : State := s.setArray (s.array.setSlot i v)

/-- One bit lost: a sound area becomes correctable, any other uncorrectable (R98). -/
def Integrity.loseBit : Integrity → Integrity
  | .sound => .oneBit
  | _ => .unreadable

/-- An area after the decay that a read finds. -/
def Area.age {α : Type} (a : Area α) : Decay α → Area α
  | .none => a
  | .oneBit => { a with integrity := a.integrity.loseBit }
  | .twoBits => { a with integrity := .unreadable }
  | .wide x corrected => ⟨x, if corrected then .oneBit else .sound⟩

/-- An area after a write with its read-back: what was written when it matches, and otherwise what the write has left
(R110). -/
def Area.written {α : Type} (old : Area α) (new : α) : ReadBack → Area α
  | .matched => ⟨new, .sound⟩
  | .mismatched .old => old
  | .mismatched .new => ⟨new, .oneBit⟩
  | .mismatched .pattern => { old with integrity := .unreadable }

/-- An area after a torn write (R150). -/
def Area.torn {α : Type} (old : Area α) (new : α) : Left → Area α
  | .old => old
  | .new => ⟨new, .sound⟩
  | .pattern => { old with integrity := .unreadable }

end Sys2Proof.Machine
end

