-- ==== Sys2Proof/Machine/Operands.lean ====
section
/-! DEFINITION. Every layout of the manual: little-endian fields, the record and its bodies (R101, R102), the frame and
its check (R178, R180), the message payloads (R4, R166, R189), and the settings as they are carried (R195). -/

namespace Sys2Proof.Machine

/-! ## Fields -/

/-- A two-byte field, least significant byte first. -/
def le16 (n : Nat) : List Byte := [byte n, byte (n / 256)]

/-- A three-byte field. -/
def le24 (n : Nat) : List Byte := [byte n, byte (n / 256), byte (n / 65536)]

/-- A four-byte field. -/
def le32 (n : Nat) : List Byte := [byte n, byte (n / 256), byte (n / 65536), byte (n / 16777216)]

/-- A signed one-byte field. -/
def signed (i : Int) : Byte := BitVec.ofInt 8 i

/-- A flag as a number. -/
def bit (b : Bool) : Nat := if b then 1 else 0

/-- The byte at a place, 0 past the end. -/
def u8 (bs : List Byte) (i : Nat) : Nat := (bs.getD i 0).toNat

/-- The two-byte field at a place. -/
def u16 (bs : List Byte) (i : Nat) : Nat := u8 bs i + 256 * u8 bs (i + 1)

/-- The four-byte field at a place. -/
def u32 (bs : List Byte) (i : Nat) : Nat := u16 bs i + 65536 * u16 bs (i + 2)

/-- The signed byte at a place. -/
def i8 (bs : List Byte) (i : Nat) : Int := (bs.getD i 0).toInt

/-- The bytes filled with zeros up to `n`. -/
def padTo (n : Nat) (bs : List Byte) : List Byte := bs ++ List.replicate (n - bs.length) 0

/-! ## Codes -/

/-- The load class code (R4). -/
def LoadClass.code : LoadClass → Nat
  | .light => 0
  | .normal => 1
  | .heavy => 2

/-- The load class that a code stands for. -/
def loadClassOf : Nat → Option LoadClass
  | 0 => some .light
  | 1 => some .normal
  | 2 => some .heavy
  | _ => none

/-- The reason of HELD, as STATUS reports it (R192). -/
def HeldReason.code : HeldReason → Nat
  | .limit => 1
  | .airflow => 2
  | .stale => 3
  | .orphan => 4
  | .faultAtLoss => 5

/-- The phase byte (R101): HELD with its reason is 8 to 12. -/
def LossPhase.code : LossPhase → Nat
  | .heat => 1
  | .cool => 2
  | .anticrease => 3
  | .paused .heat => 4
  | .paused .cool => 5
  | .held r => 7 + r.code

/-- The phase that a phase byte of a record stands for; any other byte is taken as HELD with reason FAULT_AT_LOSS
(R131). -/
def lossPhaseOf : Nat → LossPhase
  | 1 => .heat
  | 2 => .cool
  | 3 => .anticrease
  | 4 => .paused .heat
  | 5 => .paused .cool
  | 8 => .held .limit
  | 9 => .held .airflow
  | 10 => .held .stale
  | 11 => .held .orphan
  | _ => .held .faultAtLoss

/-- The reason code of a CHECKPOINT (R101). -/
def CheckpointReason.code : CheckpointReason → Nat
  | .periodic => 0
  | .phase => 1
  | .pay => 2
  | .limit => 3
  | .pause => 4
  | .rideThrough => 5
  | .reemit => 6

/-- The reason code of a LOSS (R101). -/
def LossReason.code : LossReason → Nat
  | .mains => 1
  | .sag => 2
  | .restart => 3

/-- The reason code of a CLOSE (R101). -/
def CloseReason.code : CloseReason → Nat
  | .door => 1
  | .limitEnd => 2
  | .anticreaseNone => 3
  | .stop => 4
  | .discard => 5

/-- The plan kind code (R101). -/
def PlanKind.code : PlanKind → Nat
  | .resumeHeat => 1
  | .resumeCool => 2
  | .resumeAnticrease => 3
  | .resumePaused => 4
  | .finish => 5
  | .holdStale => 6
  | .holdOrphan => 7
  | .holdFault => 8

/-- The six record kinds. -/
inductive RecordKind where
  | openCycle
  | checkpoint
  | loss
  | adopt
  | close
  | erased
deriving DecidableEq, Repr

/-- The kind code (Records). -/
def RecordKind.code : RecordKind → Nat
  | .openCycle => 1
  | .checkpoint => 2
  | .loss => 3
  | .adopt => 4
  | .close => 5
  | .erased => 14

/-- The kind that a kind byte stands for. -/
def recordKindOf : Nat → Option RecordKind
  | 1 => some .openCycle
  | 2 => some .checkpoint
  | 3 => some .loss
  | 4 => some .adopt
  | 5 => some .close
  | 14 => some .erased
  | _ => none

/-! ## Record bodies (R101, R102) -/

/-- The flags byte of a progress or adoption body. -/
def flagsByte (stale motorOn : Bool) (stagesOn : Nat) (latched recovery : Bool) : Byte :=
  byte (bit stale + 2 * bit motorOn + 4 * stagesOn + 16 * bit latched + 32 * bit recovery)

/-- The programme body, its origin byte 1 for a re-emitted OPEN. -/
def programmeBody (g : Programme) (reemit : Bool) : List Byte :=
  padTo 16 ([byte g.setpoint, byte g.maxStages, byte g.loadClass.code] ++ le16 g.coolLen ++ le16 g.period
    ++ le16 g.tumble ++ le16 g.limit ++ le16 g.initialPaid ++ [byte (bit reemit)])

/-- The progress body. -/
def progressBody (b : Progress) : List Byte :=
  padTo 16 ([byte b.phase.code] ++ le16 b.paid ++ le16 b.elapsed ++ [byte b.exhaust, signed b.inlet,
    flagsByte b.stale b.motorOn b.stagesOn b.latched false, byte b.trips, byte b.level])

/-- A stall as a three-byte field: 0xFFFFFF when it is unbounded (R93, R102). -/
def stallField : Option Nat → List Byte
  | none => le24 0xFFFFFF
  | some n => le24 n

/-- The phase byte of a plan: 0 for FINISH (R102). -/
def planPhaseCode (l : Plan) : Nat :=
  match l.phase with
  | none => 0
  | some f => f.code

/-- The adoption body. -/
def adoptionBody (l : Plan) (exhaust : Option Nat) (inlet : Int) (trips : Nat) (latched : Bool) : List Byte :=
  [byte (planPhaseCode l)] ++ le16 l.paid ++ le16 l.position ++ [byte (exhaust.getD 0), signed inlet,
    flagsByte exhaust.isNone false 0 latched l.recovery, byte trips, byte l.kind.code] ++ le16 l.credit
    ++ stallField l.stall ++ [byte (l.loadTemp + 10).toNat]

/-- The close body. -/
def closeBody (paid elapsed : Nat) : List Byte := padTo 16 (le16 paid ++ le16 elapsed)

/-- The record kind of a request. -/
def RecordData.kind : RecordData → RecordKind
  | .openCycle _ _ => .openCycle
  | .checkpoint _ _ => .checkpoint
  | .loss _ _ => .loss
  | .adopt _ _ _ _ _ => .adopt
  | .close _ _ _ => .close

/-- The reason code of a request. -/
def RecordData.reason : RecordData → Nat
  | .checkpoint r _ => r.code
  | .loss r _ => r.code
  | .close r _ _ => r.code
  | _ => 0

/-- The body of a request's record, fixed by what the request carries. -/
def RecordData.body : RecordData → List Byte
  | .openCycle g reemit => programmeBody g reemit
  | .checkpoint _ b => progressBody b
  | .loss _ b => progressBody b
  | .adopt l exhaust inlet trips latched => adoptionBody l exhaust inlet trips latched
  | .close _ paid elapsed => closeBody paid elapsed

/-- The 26 record bytes. -/
def recordBytes (kind : RecordKind) (p : Pocket) (reason stamp cycleStamp : Nat) (body : List Byte) : List Byte :=
  [byte kind.code, byte (pocketIndex p + 16 * reason)] ++ le32 stamp ++ le32 cycleStamp ++ body

/-- The record that an attempt of a request writes: an OPEN bears its own stamp as its cycle stamp, any other record
the cycle stamp the writer holds (R100). -/
def Request.bytes (r : Request) (stamp cycleStamp : Nat) : List Byte :=
  recordBytes r.data.kind r.pocket r.data.reason stamp
    (match r.data with | .openCycle _ _ => stamp | _ => cycleStamp) r.data.body

/-! ## Reading a record (R99, R129, R131) -/

/-- The kind of a record. -/
def recKind (bs : List Byte) : Option RecordKind := recordKindOf (u8 bs 0)

/-- The pocket value of a record, 0 to 3. -/
def recPocketValue (bs : List Byte) : Nat := u8 bs 1 % 4

/-- The pocket of a record. -/
def recPocket (bs : List Byte) : Option Pocket := pocketOf (recPocketValue bs)

/-- The stamp of a record. -/
def recStamp (bs : List Byte) : Nat := u32 bs 2

/-- The cycle stamp of a record. -/
def recCycleStamp (bs : List Byte) : Nat := u32 bs 6

/-- The condition of a slot whose content the check code gives (R99). -/
def conditionOf (bs : List Byte) : Condition :=
  match recKind bs with
  | none => .torn
  | some .erased => .erased
  | some _ => if recPocketValue bs ≥ 2 ∨ recStamp bs = 0 then .torn else .valid

/-- What a read of a slot gives: its condition, its bytes as corrected (zeros when TORN) and whether it made a
correction (R98, R99, R120). -/
structure SlotRead where
  condition : Condition
  bytes : List Byte
  corrected : Bool
deriving DecidableEq, Repr

/-- The bytes sent for a TORN or RETIRED slot (R120). -/
def zeroRecord : List Byte := List.replicate 26 0

/-- Read a slot that is not retired. -/
def readSlot (v : Slot) : SlotRead :=
  match v.integrity with
  | .unreadable => ⟨.torn, zeroRecord, false⟩
  | i => ⟨conditionOf v.content, if conditionOf v.content = .torn then zeroRecord else v.content, i == .oneBit⟩

/-- The programme fields in range, in payload order: the index of the first field out of its range (R5), if any. -/
def programmeFault (setpoint maxStages loadClass coolLen period tumble limit paid : Nat) : Option Nat :=
  if ¬ (40 ≤ setpoint ∧ setpoint ≤ 80) then some 1
  else if ¬ (1 ≤ maxStages ∧ maxStages ≤ 2) then some 2
  else if 2 < loadClass then some 3
  else if ¬ (60 ≤ coolLen ∧ coolLen ≤ 900) then some 4
  else if ¬ (60 ≤ period ∧ period ≤ 900) then some 5
  else if 900 < tumble then some 6
  else if 7200 < limit then some 7
  else if ¬ (60 ≤ paid ∧ paid ≤ 21600) then some 8
  else none

/-- The programme of an OPEN record, none when a field lies outside its range (R129). -/
def programmeOf (bs : List Byte) : Option Programme :=
  match programmeFault (u8 bs 10) (u8 bs 11) (u8 bs 12) (u16 bs 13) (u16 bs 15) (u16 bs 17) (u16 bs 19) (u16 bs 21),
    loadClassOf (u8 bs 12) with
  | none, some c => some ⟨u8 bs 10, u8 bs 11, c, u16 bs 13, u16 bs 15, u16 bs 17, u16 bs 19, u16 bs 21⟩
  | _, _ => none

/-- An inlet temperature clamped into its range (R13, R131). -/
def clampInlet (i : Int) : Int := max (-10) (min 60 i)

/-! ## The frame (R178, R180) -/

/-- One bit of the check: the register is shifted, and combined with 0x1021 when the bit shifted out differs from the
data bit. -/
def checkBit (reg : Check) (bit : Bool) : Check :=
  if (reg.msb != bit) then (reg <<< 1) ^^^ 0x1021 else reg <<< 1

/-- One byte of the check, most significant bit first. -/
def checkByte (reg : Check) (b : Byte) : Check :=
  [7, 6, 5, 4, 3, 2, 1, 0].foldl (fun r i => checkBit r (b.getLsbD i)) reg

/-- The check over bytes: the register starts at 0xFFFF (R180). -/
def checkOf (bs : List Byte) : Check := bs.foldl checkByte 0xFFFF

/-- The LEAD byte (R178). -/
def leadByte : Byte := 0xB4

/-- The largest LEN (R178). -/
def maxLen : Nat := 56

/-- The bytes of a frame: LEAD, KIND, TAG, LEN, the payload and the CHECK, low byte first (R178). -/
def frameBytes (kind tag : Byte) (payload : List Byte) : List Byte :=
  let covered := [kind, tag, byte payload.length] ++ payload
  [leadByte] ++ covered ++ le16 (checkOf covered).toNat

/-- The bytes that leave TXD for a frame of the transmit list. -/
def TxFrame.bytes (f : TxFrame) : List Byte := frameBytes f.kind f.tag f.payload

/-! ## Messages (R4, R166, R189, R198) -/

/-- A message with its payload fields. -/
inductive Message where
  | status
  | openCycle (pocket setpoint maxStages loadClass coolLen period tumble limit paid : Nat)
  | pay (pocket amount : Nat)
  | telemetry (pocket exhaust : Nat) (inlet : Int)
  | heat (pocket level : Nat)
  | phase (pocket action : Nat)
  | clearLimit (pocket : Nat)
  | planQuery (pocket : Nat)
  | planAdopt (pocket : Nat)
  | planDiscard (pocket : Nat)
  | journalRead (first count : Nat)
  | settingsRead
  | settingsWrite (pairs : List (Nat × Nat))
  | restart
deriving DecidableEq, Repr

/-- The kind code (R189). -/
def Message.kind : Message → Byte
  | .status => 0x01
  | .openCycle .. => 0x02
  | .pay .. => 0x03
  | .telemetry .. => 0x04
  | .heat .. => 0x05
  | .phase .. => 0x06
  | .clearLimit .. => 0x07
  | .planQuery .. => 0x08
  | .planAdopt .. => 0x09
  | .planDiscard .. => 0x0A
  | .journalRead .. => 0x0B
  | .settingsRead => 0x0C
  | .settingsWrite .. => 0x0D
  | .restart => 0x0E

/-- The pairs of a SETTINGS_WRITE payload (R198). -/
def pairsOf : List Byte → List (Nat × Nat)
  | k :: lo :: hi :: rest => (k.toNat, lo.toNat + 256 * hi.toNat) :: pairsOf rest
  | _ => []

/-- What dispatch makes of a KIND and a payload (R184 tests 4 and 5). -/
inductive Content where
  | unknownKind
  | badLength
  | message (m : Message)
deriving DecidableEq, Repr

/-- A SETTINGS_WRITE carries one to eighteen whole pairs (R189). -/
def settingsLengthOk (n : Nat) : Bool := n % 3 == 0 && decide (3 ≤ n) && decide (n ≤ 54)

/-- The payload has the length R189 gives, or the answer is BAD_LENGTH. -/
def lengthIs (n : Nat) (b : List Byte) (m : Message) : Content :=
  if b.length = n then .message m else .badLength

/-- The message that a KIND and a payload spell (R189). -/
def contentOf (kind : Byte) (b : List Byte) : Content :=
  match kind.toNat with
  | 0x01 => lengthIs 0 b .status
  | 0x02 => lengthIs 14 b
      (.openCycle (u8 b 0) (u8 b 1) (u8 b 2) (u8 b 3) (u16 b 4) (u16 b 6) (u16 b 8) (u16 b 10) (u16 b 12))
  | 0x03 => lengthIs 3 b (.pay (u8 b 0) (u16 b 1))
  | 0x04 => lengthIs 3 b (.telemetry (u8 b 0) (u8 b 1) (i8 b 2))
  | 0x05 => lengthIs 2 b (.heat (u8 b 0) (u8 b 1))
  | 0x06 => lengthIs 2 b (.phase (u8 b 0) (u8 b 1))
  | 0x07 => lengthIs 1 b (.clearLimit (u8 b 0))
  | 0x08 => lengthIs 1 b (.planQuery (u8 b 0))
  | 0x09 => lengthIs 1 b (.planAdopt (u8 b 0))
  | 0x0A => lengthIs 1 b (.planDiscard (u8 b 0))
  | 0x0B => lengthIs 2 b (.journalRead (u8 b 0) (u8 b 1))
  | 0x0C => lengthIs 0 b .settingsRead
  | 0x0D => if settingsLengthOk b.length then .message (.settingsWrite (pairsOf b)) else .badLength
  | 0x0E => lengthIs 0 b .restart
  | _ => .unknownKind

/-- The payload of a message, as the appliance controller sends it. -/
def Message.payload : Message → List Byte
  | .status | .settingsRead | .restart => []
  | .openCycle p sp ms lc c pd tu lim paid =>
    [byte p, byte sp, byte ms, byte lc] ++ le16 c ++ le16 pd ++ le16 tu ++ le16 lim ++ le16 paid
  | .pay p n => byte p :: le16 n
  | .telemetry p e i => [byte p, byte e, signed i]
  | .heat p l => [byte p, byte l]
  | .phase p a => [byte p, byte a]
  | .clearLimit p | .planQuery p | .planAdopt p | .planDiscard p => [byte p]
  | .journalRead f c => [byte f, byte c]
  | .settingsWrite pairs => pairs.flatMap fun kv => byte kv.1 :: le16 kv.2

/-! ## Settings as they are carried (R195) -/

/-- The 22 values in key-code order, ABANDON in units of 10 s. -/
def Settings.wire (g : Settings) : List Nat :=
  [g.mainsHz, g.missN, g.qualN, g.sagPct, g.lossPct, g.returnPct, g.sagLossS, g.ckptInterval, g.teleStale, g.silence,
    g.guardLimit, g.hazard, g.halfLight, g.halfNormal, g.halfHeavy, g.rewarmRate, g.creditCap, g.abandon / 10, g.budget,
    g.stageI, g.motorI, g.stagger]

/-- The table that 22 carried values give. -/
def settingsOf (v : List Nat) : Settings where
  mainsHz := v.getD 0 0
  missN := v.getD 1 0
  qualN := v.getD 2 0
  sagPct := v.getD 3 0
  lossPct := v.getD 4 0
  returnPct := v.getD 5 0
  sagLossS := v.getD 6 0
  ckptInterval := v.getD 7 0
  teleStale := v.getD 8 0
  silence := v.getD 9 0
  guardLimit := v.getD 10 0
  hazard := v.getD 11 0
  halfLight := v.getD 12 0
  halfNormal := v.getD 13 0
  halfHeavy := v.getD 14 0
  rewarmRate := v.getD 15 0
  creditCap := v.getD 16 0
  abandon := 10 * v.getD 17 0
  budget := v.getD 18 0
  stageI := v.getD 19 0
  motorI := v.getD 20 0
  stagger := v.getD 21 0

/-- `n` lies from `lo` to `hi`, both included. -/
def within (lo hi n : Nat) : Bool := decide (lo ≤ n) && decide (n ≤ hi)

/-- Every value in its range and both joining constraints held: a consistent table. -/
def Settings.consistent (g : Settings) : Bool :=
  (g.mainsHz == 50 || g.mainsHz == 60) && within 2 8 g.missN && within 20 600 g.qualN && within 60 95 g.sagPct
    && within 40 80 g.lossPct && within (g.lossPct + 10) 95 g.returnPct && within 1 10 g.sagLossS
    && within 15 120 g.ckptInterval && within 10 300 g.teleStale && within 1 60 g.silence
    && within 60 900 g.guardLimit && within 40 90 g.hazard && within 120 3600 g.halfLight
    && within 120 3600 g.halfNormal && within 120 3600 g.halfHeavy && within 0 60 g.rewarmRate
    && within 0 1800 g.creditCap && within 1800 86400 g.abandon && within 50 1000 g.budget
    && decide (2 * g.motorI + g.stageI ≤ g.budget) && within 10 300 g.stageI && within 10 150 g.motorI
    && within 0 10 g.stagger

/-- The table with the value of a key code written, in the unit in which it is carried; none for a code that is not 1
to 22. -/
def Settings.withKey (g : Settings) (code value : Nat) : Option Settings :=
  if 1 ≤ code ∧ code ≤ 22 then some (settingsOf (g.wire.set (code - 1) value)) else none

/-- The trial of R198: the table after the valid prefix, how many pairs it holds and the index of the first invalid
pair. -/
def trySettings (trial : Settings) (i : Nat) : List (Nat × Nat) → Settings × Nat × Option Nat
  | [] => (trial, i, none)
  | (code, value) :: rest =>
    match trial.withKey code value with
    | some g => if g.consistent then trySettings g (i + 1) rest else (trial, i, some i)
    | none => (trial, i, some i)

/-! ## Replies (R185) -/

/-- The result codes. -/
inductive Result where
  | ok
  | busy
  | badLength
  | badValue
  | wrongState
  | interlock
  | planPending
  | aborted
  | journalWorn
  | unknownKind
deriving DecidableEq, Repr

/-- The code of a result. -/
def Result.code : Result → Byte
  | .ok => 0
  | .busy => 1
  | .badLength => 2
  | .badValue => 3
  | .wrongState => 4
  | .interlock => 5
  | .planPending => 6
  | .aborted => 7
  | .journalWorn => 8
  | .unknownKind => 9

/-- The reply kind: the request's kind with bit 7 set. -/
def replyKind (kind : Byte) : Byte := kind ||| 0x80

/-- The plan figures of a reply, in order (R166). -/
def planFields (l : Plan) : List Byte :=
  [byte l.kind.code, byte (planPhaseCode l), byte (l.loadTemp + 10).toNat, byte l.decayed] ++ le16 l.credit
    ++ le16 l.paid ++ le16 l.position ++ [byte (bit l.recovery)] ++ stallField l.stall ++ le32 l.source

/-- The condition code of a stream frame (R120). -/
def Condition.code : Condition → Nat
  | .valid => 0
  | .erased => 1
  | .torn => 2
  | .retired => 3

end Sys2Proof.Machine
end

