-- ==== Sys2Proof/Machine/Flags.lean ====
section
/-! DEFINITION. Every condition and flag the manual names, read from the state, and the STATUS report built from them
(R190 to R192). -/

namespace Sys2Proof.Machine

/-! ## Pocket states -/

/-- Said of a pocket in HEAT, COOL, ANTICREASE, PAUSED or HELD. -/
def PocketState.active : PocketState → Bool
  | .heat | .cool | .anticrease | .paused _ | .held _ => true
  | _ => false

/-- The states whose entry sets the pocket's active flag; entry to any other clears it (R2). -/
def PocketState.flagged : PocketState → Bool
  | .free | .opening | .closing _ => false
  | _ => true

/-- OPENING, ADOPTING and CLOSING: the states that refuse cycle messages with BUSY (R3). -/
def PocketState.busy : PocketState → Bool
  | .opening | .adopting | .closing _ => true
  | _ => false

/-- PENDING and ADOPTING: the states whose cycle is held in the resume context. -/
def PocketState.planPending : PocketState → Bool
  | .pending | .adopting => true
  | _ => false

/-- HEAT and COOL: the states in which the paid clock counts (R9). -/
def PocketState.runs : PocketState → Bool
  | .heat | .cool => true
  | _ => false

/-- HEAT, COOL and PAUSED: the states in which a limit trip is counted (R21) and CLEAR_LIMIT is taken (R57). -/
def PocketState.paying : PocketState → Bool
  | .heat | .cool | .paused _ => true
  | _ => false

/-- The phase that a progress body gives an active pocket (R24). -/
def PocketState.lossPhase : PocketState → Option LossPhase
  | .heat => some .heat
  | .cool => some .cool
  | .anticrease => some .anticrease
  | .paused r => some (.paused r)
  | .held r => some (.held r)
  | _ => none

/-- The state code (R192). -/
def PocketState.code : PocketState → Nat
  | .free => 0
  | .opening => 1
  | .heat => 2
  | .cool => 3
  | .anticrease => 4
  | .paused _ => 5
  | .pending => 6
  | .adopting => 7
  | .held _ => 8
  | .closing _ => 9

/-- The cool length of the pocket's programme, 0 when it holds none. -/
def Tracker.coolLen (t : Tracker) : Nat :=
  match t.programme with
  | some g => g.coolLen
  | none => 0

/-- HEAT when the paid time is above the cool length, and COOL otherwise (R7, R165). -/
def runPhaseFor (paid coolLen : Nat) : RunPhase := if coolLen < paid then .heat else .cool

/-- The pocket state of a running phase. -/
def RunPhase.state : RunPhase → PocketState
  | .heat => .heat
  | .cool => .cool

/-- The phase of a running phase. -/
def RunPhase.lossPhase : RunPhase → LossPhase
  | .heat => .heat
  | .cool => .cool

/-! ## Part-wide conditions -/

/-- A capture is in progress in every capture state other than NONE. -/
def State.capturing (s : State) : Bool := s.capture.state != .none

/-- The recovery scan, or the settings load before it, runs (R196). -/
def State.scanning (s : State) : Bool := s.scan.phase != .done

/-- The mains state is PRESENT or SAG: motors may be granted. -/
def MainsState.carriesMotors : MainsState → Bool
  | .present | .sag => true
  | _ => false

/-- A loss is in progress: a capture, or the mains FALTERING, LOST or QUALIFYING (R6, R168). -/
def State.lossInProgress (s : State) : Bool := s.capturing || !s.mains.state.carriesMotors

/-- The telemetry of the pocket is stale (R14). -/
def State.stale (s : State) (p : Pocket) : Bool := decide (s.settings.teleStale < (s.tracker p).age / 1000)

/-! ## Wants and demand -/

/-- The motor of the pocket is wanted (Motor Output). -/
def State.motorWanted (s : State) (p : Pocket) : Bool :=
  match (s.tracker p).state with
  | .heat | .cool => true
  | .anticrease => (s.schedule p).tumble != .rest
  | .pending => (s.output p).guard.isSome
  | .held _ => (s.tracker p).held.isSome
  | _ => false

/-- The three conditions of R48: the motor is wanted, the door closed, and the mains PRESENT or SAG. -/
def State.motorAllowed (s : State) (p : Pocket) : Bool :=
  s.motorWanted p && !(s.line p).doorOpen && s.mains.state.carriesMotors

/-- Heat is requested: the pocket is in HEAT with heat level above 0 (R52). -/
def State.heatRequested (s : State) (p : Pocket) : Bool :=
  (s.tracker p).state == .heat && decide (0 < (s.tracker p).level)

/-- The heat level that a stage needs; a motor is no stage. -/
def Item.level : Item → Nat
  | .motor => 0
  | .stage1 => 1
  | .stage2 => 2

/-- A stage of the pocket is in demand (Heater Stage Outputs). -/
def State.inDemand (s : State) (p : Pocket) (i : Item) : Bool :=
  (s.tracker p).state == .heat && decide (i.level ≤ (s.tracker p).level) && (s.output p).motor
    && (s.output p).airflow == .proven && !(s.line p).doorOpen && !(s.output p).latch

/-- How many of the pocket's stage outputs are on. -/
def Outputs.stagesOn (o : Outputs) : Nat := bit o.stage1 + bit o.stage2

/-! ## Reserve and stall -/

/-- The reserve states (R96). -/
inductive ReserveState where
  | charging
  | ready
  | low
deriving DecidableEq, Repr

/-- The reserve state: CHARGING while the marker is invalid, since both change at the reserve's first arrival at its
ready level, and then READY or LOW by the level (R95, R96). -/
def AlwaysOn.reserveState (o : AlwaysOn) : ReserveState :=
  if !o.marker then .charging else if o.reserve = .ready then .ready else .low

/-- The stall read of the pocket, none when it is unbounded (R93). -/
def State.stallRead (s : State) (p : Pocket) : Option Nat :=
  let t := s.stall p
  if !s.alwaysOn.marker || decide (Config.stallMax ≤ t.count) || !t.running then none else some t.count

/-- The stall that STATUS reports (R93, R192; log entry 24 for a saturated timer). -/
def State.stallReport (s : State) (p : Pocket) : Option Nat :=
  let t := s.stall p
  if (s.tracker p).state.planPending then s.stallRead p
  else if !t.running then some 0
  else if Config.stallMax ≤ t.count then none
  else some t.count

/-! ## Progress -/

/-- The progress body of the pocket's live state in a phase (R14, R24). -/
def State.progress (s : State) (p : Pocket) (phase : LossPhase) : Progress where
  phase := phase
  paid := (s.tracker p).paid
  elapsed := (s.schedule p).elapsed
  exhaust := (s.tracker p).exhaust.getD 0
  inlet := (s.tracker p).inlet
  stale := s.stale p
  motorOn := (s.output p).motor
  stagesOn := (s.output p).stagesOn
  latched := (s.output p).latch
  trips := (s.tracker p).trips
  level := (s.tracker p).level

/-- The progress body built from a resume context (R12): its outputs off, its heat level 0. -/
def Context.progress (c : Context) : Progress where
  phase := c.phase
  paid := c.paid
  elapsed := c.elapsed
  exhaust := c.exhaust.getD 0
  inlet := c.inlet
  stale := c.exhaust.isNone
  motorOn := false
  stagesOn := 0
  latched := false
  trips := c.trips
  level := 0

/-- The mark of a context: ORPHAN when it has no programme, FAULT_AT_LOSS when its phase is HELD (R30). -/
def markFor (programme : Option Programme) (phase : LossPhase) : Mark :=
  match programme, phase with
  | none, _ => .orphan
  | some _, .held _ => .faultAtLoss
  | some _, _ => .none

/-- The mark's code (R192). -/
def Mark.code : Mark → Nat
  | .none => 0
  | .orphan => 1
  | .faultAtLoss => 2

/-- The stall source of a context built now (R30), by the marker as it stands at that moment, at the end of the scan of a
COLD start too (R131; log entry 47). -/
def State.stallSource (s : State) : StallSource := if s.alwaysOn.marker then .timer else .unbounded

/-! ## STATUS (R191, R192) -/

/-- The mains state code. -/
def MainsState.code : MainsState → Nat
  | .present => 0
  | .sag => 1
  | .faltering => 2
  | .lost => 3
  | .qualifying => 4

/-- The reserve state code. -/
def ReserveState.code : ReserveState → Nat
  | .charging => 0
  | .ready => 1
  | .low => 2

/-- The journal field: bits 0 and 1 the journal state, bit 2 MAP_LOST. -/
def State.journalField (s : State) : Nat :=
  (if s.scanning then 2 else bit s.writer.worn) + 4 * bit s.writer.mapLost

/-- The start causes field. -/
def Causes.field (c : Causes) : Nat := bit c.cold + 2 * bit c.ret + 4 * bit c.pin + 8 * bit c.restart

/-- The link errors field. -/
def Counters.field (c : Counters) : List Byte :=
  [byte c.framing, byte c.check, byte c.gap, byte c.length, byte c.lead, byte c.overrun]

/-- The part-wide fields; `silent` is SILENT as it stood before the STATUS frame (R62, R190). -/
def State.statusHead (s : State) (silent : Bool) : List Byte :=
  [byte Config.revision, byte s.mains.state.code, byte s.alwaysOn.reserveState.code, byte s.journalField,
    byte s.writer.retired.length] ++ le16 s.writer.soft ++ le16 s.writer.hard ++ le16 s.writer.lost
    ++ [byte (bit s.defaulted + 2 * bit silent), byte s.alwaysOn.causes.field] ++ s.link.counters.field

/-- The qualifier of a pocket's state. -/
def State.qualifier (s : State) (p : Pocket) : Nat :=
  match (s.tracker p).state with
  | .paused .heat => 1
  | .paused .cool => 2
  | .held r => r.code
  | .closing r => r.code
  | .pending | .adopting =>
    match (s.tracker p).context with
    | some c => c.mark.code
    | none => 0
  | _ => 0

/-- The context whose figures STATUS reports for a PENDING or ADOPTING pocket. -/
def Tracker.reported (t : Tracker) : Option Context := if t.state.planPending then t.context else none

/-- The outputs field of a pocket. -/
def State.outputsField (s : State) (p : Pocket) : Nat :=
  let o := s.output p
  bit o.motor + 2 * bit o.stage1 + 4 * bit o.stage2 + 8 * bit o.latch + 16 * bit (s.tracker p).state.planPending

/-- The heat level that STATUS reports: 0 for a PENDING or ADOPTING pocket (R192). -/
def Tracker.reportedLevel (t : Tracker) : Nat := if t.state.planPending then 0 else t.level

/-- A pocket's fields. -/
def State.statusPocket (s : State) (p : Pocket) : List Byte :=
  let t := s.tracker p
  let c := t.reported
  [byte t.state.code, byte (s.qualifier p)] ++ le16 ((c.map (·.paid)).getD t.paid)
    ++ le16 ((c.map (·.elapsed)).getD (s.schedule p).elapsed)
    ++ [byte t.reportedLevel, byte (s.outputsField p), byte ((c.map (·.trips)).getD t.trips)]
    ++ stallField (s.stallReport p) ++ le16 (s.schedule p).skipped

/-- The payload of a STATUS reply after its result code. -/
def State.statusFields (s : State) (silent : Bool) : List Byte :=
  s.statusHead silent ++ s.statusPocket .a ++ s.statusPocket .b

end Sys2Proof.Machine
end

