-- ==== Sys2Proof/Machine/Arbiter.lean ====
section
/-! DEFINITION. The Current Arbiter with the turning on of what it grants: queue, budget, grants, shedding, revocation
(R64 to R76), and the airflow and tumble effects of a motor's turn-on (R36, R52). -/

namespace Sys2Proof.Machine

/-- The item is a heater stage. -/
def Item.isStage : Item → Bool
  | .motor => false
  | _ => true

/-- The load is a heater stage. -/
def Load.isStage (l : Load) : Bool := l.item.isStage

/-- The item is queued or granted. -/
def Arbiter.holds (a : Arbiter) (l : Load) : Bool := a.queue.contains l || a.granted.contains l

/-- A request of the OSU: a MOTOR goes behind the last MOTOR and ahead of every stage, a stage to the tail, and a
STAGE1 takes its own queued STAGE2 along behind it. An item already queued or granted changes nothing (R65). -/
def Arbiter.request (a : Arbiter) (l : Load) : Arbiter :=
  if a.holds l then a
  else
    match l.item with
    | .motor =>
      { a with queue := a.queue.takeWhile (!·.isStage) ++ l :: a.queue.dropWhile (!·.isStage) }
    | .stage1 =>
      let own : Load := ⟨l.pocket, .stage2⟩
      if a.queue.contains own then { a with queue := a.queue.filter (· != own) ++ [l, own] }
      else { a with queue := a.queue ++ [l] }
    | .stage2 => { a with queue := a.queue ++ [l] }

/-- The item leaves the queue, by withdrawal, and the granted set, by release (R66, R73). -/
def Arbiter.remove (a : Arbiter) (l : Load) : Arbiter :=
  { a with queue := a.queue.filter (· != l), granted := a.granted.filter (· != l) }

/-- What an item draws, in units of 0.1 A (R67). -/
def Settings.draw (g : Settings) : Item → Nat
  | .motor => g.motorI
  | _ => g.stageI

/-- The load: what the granted items draw together (R67). -/
def loadOf (g : Settings) (granted : List Load) : Nat := (granted.map fun l => g.draw l.item).sum

/-- The stagger timer is ELAPSED (R68). -/
def State.staggerElapsed (s : State) : Bool :=
  match s.arbiter.stagger with
  | none => true
  | some t => decide (1000 * s.settings.stagger ≤ t)

/-- The grant rule for a head entry (R69). A MOTOR is not held back by the budget. -/
def State.grantable (s : State) (l : Load) : Bool :=
  s.staggerElapsed &&
    match l.item with
    | .motor => s.mains.state.carriesMotors
    | .stage1 =>
      s.mains.state == .present && decide (loadOf s.settings s.arbiter.granted + s.settings.stageI ≤ s.settings.budget)
    | .stage2 =>
      s.mains.state == .present && decide (loadOf s.settings s.arbiter.granted + s.settings.stageI ≤ s.settings.budget)
        && s.arbiter.granted.contains ⟨l.pocket, .stage1⟩

/-- The stages to shed, newest grant first, until a motor fits (R71). -/
def shedFrom (g : Settings) (load : Nat) : List Load → List Load
  | [] => []
  | l :: rest => if load + g.motorI ≤ g.budget then [] else l :: shedFrom g (load - g.stageI) rest

/-- The stages that a motor start sheds, oldest grant first (R71). -/
def State.sheds (s : State) : List Load :=
  (shedFrom s.settings (loadOf s.settings s.arbiter.granted) (s.arbiter.granted.filter (·.isStage)).reverse).reverse

/-- Revoke stages and re-queue them (R72): the revoked STAGE1 entries, then the revoked STAGE2 entries, each oldest
grant first, then the queued STAGE2 entries of the pockets whose STAGE1 was revoked. -/
def Arbiter.revoke (a : Arbiter) (revoked : List Load) : Arbiter :=
  let first := revoked.filter (·.item == .stage1)
  let second := revoked.filter (·.item == .stage2)
  let moved := a.queue.filter fun l => l.item == .stage2 && first.contains ⟨l.pocket, .stage1⟩
  { a with
    queue := a.queue.filter (!moved.contains ·) ++ first ++ second ++ moved
    granted := a.granted.filter (!revoked.contains ·) }

/-- An output turned on or off. -/
def Outputs.withItem (o : Outputs) (i : Item) (on : Bool) : Outputs :=
  match i with
  | .motor => { o with motor := on }
  | .stage1 => { o with stage1 := on }
  | .stage2 => { o with stage2 := on }

/-- Turn off the outputs of revoked stages and re-queue the stages (R51, R71, R72). -/
def revokeStages (revoked : List Load) (s : State) : State :=
  (revoked.foldl (fun s l => s.modOutput l.pocket (·.withItem l.item false)) s).setArbiter (s.arbiter.revoke revoked)

/-- Revoke every stage grant, as at a SAG entry (R74). -/
def revokeAllStages (s : State) : State := revokeStages (s.arbiter.granted.filter (·.isStage)) s

/-- The airflow state that a running motor with broken airflow has (R52). -/
def State.brokenAirflow (s : State) (p : Pocket) : Airflow := if s.heatRequested p then .timing else .unmade

/-- The motor output turns on: airflow proving or timing begins (R52). -/
def airflowAtTurnOn (p : Pocket) (s : State) : State :=
  s.modOutput p fun o =>
    { o with airflow := if (s.line p).airMade then .proving else s.brokenAirflow p, proving := 0, airTimer := 0 }

/-- The end of a tumble that starts now: Tu later, or the next boundary if that comes first (R36). -/
def tumbleEndFrom (elapsed tumble : Nat) : Option Nat → Nat
  | none => elapsed + tumble
  | some b => min (elapsed + tumble) b

/-- The anti-crease tumble of the pocket's programme, 0 when it holds none. -/
def Tracker.tumbleLen (t : Tracker) : Nat :=
  match t.programme with
  | some g => g.tumble
  | none => 0

/-- A DUE tumble starts when the motor output turns on (R36). -/
def startTumble (p : Pocket) (s : State) : State :=
  if (s.tracker p).state = .anticrease ∧ (s.schedule p).tumble = .due then
    s.modSchedule p fun c =>
      { c with
        tumble := .running
        tumbleEnd := some (tumbleEndFrom c.elapsed (s.tracker p).tumbleLen c.boundary) }
  else s

/-- Turn on what was granted (R48, R51). -/
def turnOn (l : Load) (s : State) : State :=
  match l.item with
  | .motor => startTumble l.pocket (airflowAtTurnOn l.pocket (s.modOutput l.pocket (·.withItem .motor true)))
  | i => s.modOutput l.pocket (·.withItem i true)

/-- Take the entry from the queue into the granted set and restart the stagger timer (R68, R70). -/
def Arbiter.grant (a : Arbiter) (l : Load) (stagger : Nat) : Arbiter where
  queue := a.queue.filter (· != l)
  granted := a.granted ++ [l]
  stagger := if stagger = 0 then none else some 0

/-- Grant an entry and turn its output on, a motor after the shedding it needs (R70, R71). -/
def grantLoad (l : Load) (s : State) : State :=
  let s := if l.item = .motor then revokeStages s.sheds s else s
  turnOn l (s.setArbiter (s.arbiter.grant l s.settings.stagger))

/-- The test of the head (R70): while the head can be granted it is, at most `fuel` times. -/
def testHead : Nat → State → State
  | 0, s => s
  | fuel + 1, s =>
    match s.arbiter.queue with
    | [] => s
    | l :: _ => if s.grantable l then testHead fuel (grantLoad l s) else s

/-- The arbiter's test at an event. One event grants at most the six items, and a motor start re-queues at most the
two stages of each pocket, so the fuel does not run out. -/
def serveArbiter (s : State) : State := testHead (12 + s.arbiter.queue.length) s

end Sys2Proof.Machine
end

