-- ==== Sys2Proof/Machine/Outputs.lean ====
section
/-! DEFINITION. The Output Stage Unit: it turns outputs off as soon as a condition lapses, and places what is wanted in
the arbiter queue (R47 to R54). -/

namespace Sys2Proof.Machine

/-- An airflow timer that no longer has a heat request is cleared, and one that gains it starts (R53). -/
def refreshAirflow (p : Pocket) (s : State) : State :=
  match (s.output p).airflow with
  | .unmade | .timing =>
    if (s.output p).airflow = s.brokenAirflow p then s
    else s.modOutput p fun o => { o with airflow := s.brokenAirflow p, airTimer := 0 }
  | _ => s

/-- An output turns off, its grant is released and its queue entry withdrawn (R49, R50). A motor that turns off takes
its airflow state to OFF (R52). -/
def dropLoad (l : Load) (s : State) : State :=
  (s.modOutput l.pocket fun o =>
    match l.item with
    | .motor => { o with motor := false, airflow := .off, proving := 0, airTimer := 0 }
    | i => o.withItem i false).setArbiter (s.arbiter.remove l)

/-- The motor drops when one of its three conditions lapses (R49). -/
def lapseMotor (p : Pocket) (s : State) : State := if s.motorAllowed p then s else dropLoad ⟨p, .motor⟩ s

/-- A stage drops when it leaves demand (R50). -/
def lapseStage (i : Item) (p : Pocket) (s : State) : State := if s.inDemand p i then s else dropLoad ⟨p, i⟩ s

/-- Every lapse of the pocket's outputs, acted on at once. -/
def lapses (p : Pocket) (s : State) : State :=
  lapseStage .stage1 p (lapseStage .stage2 p (lapseMotor p (refreshAirflow p s)))

/-- Place an item in the arbiter queue (R48, R50). -/
def requestLoad (l : Load) (s : State) : State := s.setArbiter (s.arbiter.request l)

/-- Place what the pocket's conditions call for, when it is neither queued nor granted (R48, R50). -/
def requests (p : Pocket) (s : State) : State :=
  let s := if s.motorAllowed p then requestLoad ⟨p, .motor⟩ s else s
  let s := if s.inDemand p .stage1 then requestLoad ⟨p, .stage1⟩ s else s
  if s.inDemand p .stage2 then requestLoad ⟨p, .stage2⟩ s else s

/-- The outputs after a change of a want, an interlock, the mains state or a demand: first the lapses of both pockets,
then their requests, then the arbiter's test (log entry 9). -/
def settleOutputs (s : State) : State := serveArbiter (forPockets requests (forPockets lapses s))

/-- Every output of the pocket off, its airflow OFF (R46). -/
def Outputs.allOff (o : Outputs) : Outputs :=
  { o with motor := false, stage1 := false, stage2 := false, airflow := .off, proving := 0, airTimer := 0 }

/-- The LOST event at the outputs and the arbiter: all outputs off, the guard tumbles ended, the arbiter cleared and
its stagger timer ELAPSED (R46, R59, R76). -/
def clearLoads (s : State) : State :=
  (forPockets (fun p => State.modOutput p fun o => { o.allOff with guard := none }) s).setArbiter Arbiter.start

end Sys2Proof.Machine
end

