-- ==== Sys2Proof/Machine/Queue.lean ====
section
/-! DEFINITION. The writer queue and the LOSS list: how record requests are taken (R107, R108, R145) and how LOSS
entries are ranked and joined (R146, R152). -/

namespace Sys2Proof.Machine

/-- The request is a CHECKPOINT. -/
def RecordData.isCheckpoint : RecordData → Bool
  | .checkpoint _ _ => true
  | _ => false

/-- The request is a CLOSE. -/
def RecordData.isClose : RecordData → Bool
  | .close _ _ _ => true
  | _ => false

/-- The request is a re-emitted OPEN (R26). -/
def RecordData.isReemit : RecordData → Bool
  | .openCycle _ reemit => reemit
  | _ => false

/-- The request is a LOSS. -/
def RecordData.isLoss : RecordData → Bool
  | .loss _ _ => true
  | _ => false

/-- The request is a CHECKPOINT of the pocket. -/
def Request.checkpointOf (p : Pocket) (r : Request) : Bool := r.pocket == p && r.data.isCheckpoint

/-- The request is a CLOSE of the pocket. -/
def Request.closeOf (p : Pocket) (r : Request) : Bool := r.pocket == p && r.data.isClose

/-- The request is a re-emitted OPEN of the pocket. -/
def Request.reemitOf (p : Pocket) (r : Request) : Bool := r.pocket == p && r.data.isReemit

/-- The record being written, between attempts too (R107, R111). -/
def Writer.inHand (w : Writer) : Option Request :=
  match w.op with
  | .record t => some t.req
  | _ => w.carried.map (·.1)

/-- The pocket's CLOSE is queued or being written (R108). -/
def Writer.closing (w : Writer) (p : Pocket) : Bool :=
  w.queue.any (·.closeOf p) || w.inHand.any (·.closeOf p)

/-- The queue with its first entry of a kind replaced in its place. -/
def replaceFirst (match? : Request → Bool) (new : Request) : List Request → List Request
  | [] => []
  | r :: rest => if match? r then new :: rest else r :: replaceFirst match? new rest

/-- A CHECKPOINT takes the place of the pocket's queued CHECKPOINT, or the tail (R107). -/
def takeCheckpoint (new : Request) (queue : List Request) : List Request :=
  if queue.any (·.checkpointOf new.pocket) then replaceFirst (·.checkpointOf new.pocket) new queue else queue ++ [new]

/-- The entries after the first that matches lose the pocket's CHECKPOINT (R108: no checkpoint is written after the
CLOSE; log entry 14). -/
def dropCheckpointsBehind (match? : Request → Bool) (p : Pocket) : List Request → List Request
  | [] => []
  | r :: rest => if match? r then r :: rest.filter (!·.checkpointOf p) else r :: dropCheckpointsBehind match? p rest

/-- A CLOSE takes the place of the pocket's queued re-emitted OPEN, or the tail (R108). -/
def takeClose (new : Request) (queue : List Request) : List Request :=
  if queue.any (·.reemitOf new.pocket) then
    dropCheckpointsBehind (·.closeOf new.pocket) new.pocket (replaceFirst (·.reemitOf new.pocket) new queue)
  else queue ++ [new]

/-- A CHECKPOINT is discarded when the pocket's CLOSE is queued or being written, and, unless its reason is
RIDE_THROUGH, while the loss window is open (R108). -/
def State.discardsCheckpoint (s : State) (p : Pocket) (r : CheckpointReason) : Bool :=
  s.writer.closing p || (s.capture.window && r != .rideThrough)

/-- The writer queue takes, replaces or discards a request (R107, R108, R145). The tracker's periodic count returns to
0 at any request (R25). -/
def enqueue (r : Request) (s : State) : State :=
  let s := s.modTracker r.pocket fun t => { t with periodic := 0 }
  let put (q : List Request) : State := s.setWriter { s.writer with queue := q }
  match r.data with
  | .checkpoint reason _ => if s.discardsCheckpoint r.pocket reason then s else put (takeCheckpoint r s.writer.queue)
  | .close _ _ _ => put (takeClose r s.writer.queue)
  | _ => if s.capturing then s else put (s.writer.queue ++ [r])

/-- Ask for a checkpoint of an active pocket, built from its live state (R24). A pocket that is not active asks for
none. -/
def requestCheckpoint (p : Pocket) (reason : CheckpointReason) (s : State) : State :=
  match (s.tracker p).state.lossPhase with
  | some phase => enqueue ⟨p, .checkpoint reason (s.progress p phase)⟩ s
  | none => s

/-! ## The LOSS list -/

/-- The rank of a LOSS entry (R146). -/
def LossPhase.rank : LossPhase → Nat
  | .heat => 1
  | .cool => 2
  | .paused _ => 3
  | .held _ => 4
  | .anticrease => 5

/-- The place of an entry: by rank, and pocket A ahead of pocket B at equal rank. -/
def LossEntry.key (e : LossEntry) : Nat := 2 * e.body.phase.rank + pocketIndex e.pocket

/-- The list with an entry put in its place. -/
def insertLoss (e : LossEntry) : List LossEntry → List LossEntry
  | [] => [e]
  | f :: rest => if e.key ≤ f.key then e :: f :: rest else f :: insertLoss e rest

/-- A fresh snapshot joins the list: it replaces the pocket's unstarted entry, or makes a new one (R146, R152). -/
def joinLoss (e : LossEntry) (list : List LossEntry) : List LossEntry :=
  insertLoss e (list.filter (·.pocket != e.pocket))

/-- The pocket's unstarted entry leaves the list, as when it enters CLOSING (R146). -/
def dropLoss (p : Pocket) (s : State) : State :=
  s.setCapture { s.capture with losses := s.capture.losses.filter (·.pocket != p) }

/-- The LOSS entry of the pocket's snapshot, with a reason. -/
def State.lossEntry (s : State) (p : Pocket) (reason : LossReason) : Option LossEntry :=
  (s.tracker p).snapshot.map fun n => ⟨p, reason, n.cycleStamp, n.body⟩

/-- The pocket's snapshot joins the LOSS list of a capture that has not ended (R146, R152, R154). -/
def joinSnapshot (reason : LossReason) (p : Pocket) (s : State) : State :=
  if s.capture.ended then s
  else
    match s.lossEntry p reason with
    | some e => s.setCapture { s.capture with losses := joinLoss e s.capture.losses }
    | none => s

end Sys2Proof.Machine
end

