-- ==== Sys2Proof/Machine/Stall.lean ====
section
/-! DEFINITION. The Stall Timer Unit: starting, stopping and advancing the stall timers (R89 to R93). -/

namespace Sys2Proof.Machine

/-- A start request: a running timer keeps its count and phase and becomes FIRM when the event's origin is FIRM; a
stopped one starts from 0 (R90). -/
def StallTimer.start (o : Origin) (t : StallTimer) : StallTimer :=
  if t.running then { t with origin := if o = .firm then .firm else t.origin }
  else { running := true, count := 0, origin := o, phase := 0 }

/-- A timer that is not running is started FIRM at the saturated count (R90). -/
def StallTimer.startSaturated (t : StallTimer) : StallTimer :=
  if t.running then t else { running := true, count := Config.stallMax, origin := .firm, phase := 0 }

/-- A period of a running timer ends: its count goes up and stops at the saturated count (R89). -/
def StallTimer.advance (t : StallTimer) : StallTimer :=
  if t.running then { t with count := raise Config.stallMax t.count } else t

/-- A ride-through: a PROVISIONAL timer is stopped and cleared, a FIRM one is not touched (R91). -/
def StallTimer.rideThrough (t : StallTimer) : StallTimer :=
  if t.origin = .provisional then StallTimer.cold else t

/-- A PROVISIONAL timer becomes FIRM (R91). -/
def StallTimer.makeFirm (t : StallTimer) : StallTimer := { t with origin := .firm }

/-- Ask for the pocket's stall timer to be started (R90). -/
def startStall (p : Pocket) (o : Origin) (s : State) : State := s.modStall p (·.start o)

/-- Start the pocket's timer saturated when it is not running (R90). -/
def startSaturated (p : Pocket) (s : State) : State := s.modStall p (·.startSaturated)

/-- Stop and clear the pocket's stall timer (R92). -/
def stopStall (p : Pocket) (s : State) : State := s.modStall p fun _ => StallTimer.cold

/-- Stop and clear every PROVISIONAL timer (R91). -/
def rideThroughStall (s : State) : State := forPockets (fun p => State.modStall p (·.rideThrough)) s

/-- Make every PROVISIONAL timer FIRM (R91). -/
def firmStall (s : State) : State := forPockets (fun p => State.modStall p (·.makeFirm)) s

/-- Start the timers of the active pockets (R90). -/
def startActiveStalls (o : Origin) (s : State) : State :=
  forPockets (fun p s => if (s.tracker p).state.active then startStall p o s else s) s

end Sys2Proof.Machine
end

