-- ==== Sys2Proof/Machine/Transmit.lean ====
section
/-! DEFINITION. The sending side of the Serial Link Unit: the transmit list, replies, messages in flight and the ending
of a read-out stream (R183 to R188, R122). -/

namespace Sys2Proof.Machine

/-- A frame joins the tail of the transmit list, and is being sent at once when TXD is free (R183). -/
def Link.push (f : TxFrame) (k : Link) : Link :=
  match k.sending with
  | none => { k with sending := some f }
  | some _ => { k with waiting := k.waiting ++ [f] }

/-- How many waiting frames answer received frames; frames of a read-out stream do not (R183). -/
def Link.waitingReplies (k : Link) : Nat := (k.waiting.filter (!·.stream)).length

/-- The reply frame to a request (R185). -/
def replyFrame (kind tag : Byte) (r : Result) (data : List Byte) : TxFrame where
  kind := replyKind kind
  tag := tag
  payload := r.code :: data
  stream := false
  demand := none
  restart := false

/-- Answer a request (R185). -/
def reply (kind tag : Byte) (r : Result) (data : List Byte) (s : State) : State :=
  s.setLink (s.link.push (replyFrame kind tag r data))

/-- Refuse a request with a result alone. -/
def refuse (kind tag : Byte) (r : Result) (s : State) : State := reply kind tag r [] s

/-- Refuse a request with BAD_VALUE and a field index (R185). -/
def badValue (kind tag : Byte) (index : Nat) (s : State) : State := reply kind tag .badValue [byte index] s

/-- Hold the reply of an accepted message in flight (R186). -/
def holdReply (kind tag : Byte) (awaits : Awaited) (s : State) : State :=
  s.setLink { s.link with inFlight := some ⟨kind, tag, awaits⟩ }

/-- Release the reply that waits for `awaits`: it is built with the held KIND and TAG, joins the transmit list, and the
in-flight record is cleared (R186). When no message in flight waits for it, nothing is sent. -/
def release (awaits : Awaited) (r : Result) (data : List Byte) (s : State) : State :=
  match s.link.inFlight with
  | some f =>
    if f.awaits = awaits then
      s.setLink { s.link.push { replyFrame f.kind f.tag r data with restart := awaits == .restart } with inFlight := none }
    else s
  | none => s

/-- The frame on TXD when a stream ends: it is sent to its end, but is no longer a frame of a running stream; a demand
scrub owed for it stands when a frame ended the stream and is dropped when a capture did (R122). -/
def TxFrame.orphan (byCapture : Bool) (f : TxFrame) : TxFrame :=
  if f.stream then
    { f with stream := false, demand := if byCapture then none else f.demand.map fun d => { d with own := false } }
  else f

/-- The writer when a stream ends: a read not yet started is withdrawn, one in flight will send no frame, and the
demand scrubs owed for the stream stand or are dropped (R122). -/
def Writer.endStream (byCapture : Bool) (w : Writer) : Writer :=
  { w with
    readAsked := none
    op := match w.op with | .readoutRead i _ => .readoutRead i false | o => o
    demands :=
      if byCapture then w.demands.filter (!·.own) else w.demands.map fun d => { d with own := false } }

/-- End a running read-out stream early (R122). -/
def endStream (byCapture : Bool) (s : State) : State :=
  match s.link.stream with
  | none => s
  | some _ =>
    (s.setLink { s.link with
        stream := none
        sending := s.link.sending.map (·.orphan byCapture)
        waiting := s.link.waiting.filter (!·.stream) }).setWriter (s.writer.endStream byCapture)

end Sys2Proof.Machine
end

