-- ==== Sys2Proof/Machine/Tracker.lean ====
section
/-! DEFINITION. The Pocket Trackers and their Anti-Crease Schedulers: entering a state, snapshots and resume contexts,
what the writer's notices bring, and the two clocks (R1 to R44, R169 to R172). -/

namespace Sys2Proof.Machine

/-! ## Entering a state -/

/-- A tracker in a new state: the heat level is 0 (R16), a held tumble is over, the periodic count starts at an entry
from a state that is not active (R25), and a state that is not active holds no snapshot (R27). -/
def Tracker.enter (st : PocketState) (t : Tracker) : Tracker :=
  { t with
    state := st
    level := 0
    held := none
    periodic := if st.active && !t.state.active then 0 else t.periodic
    snapshot := if st.active then t.snapshot else none }

/-- The schedule when the pocket leaves ANTICREASE (R32). -/
def Schedule.dropped (c : Schedule) : Schedule := { c with boundary := none, tumble := .rest, tumbleEnd := none }

/-- The pocket enters a state: its schedule is dropped when it leaves ANTICREASE (R32), its guard tumble is over (R59),
and its active flag is written (R2). -/
def enterState (p : Pocket) (st : PocketState) (s : State) : State :=
  let was := (s.tracker p).state
  let s := s.modTracker p (·.enter st)
  let s := if was = .anticrease ∧ st ≠ .anticrease then s.modSchedule p (·.dropped) else s
  (s.modOutput p fun o => { o with guard := none }).setActive p st.flagged

/-- Entry to FREE: the cycle's state is cleared (R23), A_e returns to 0 (R32), and the latch is cleared when LIM_x is
intact (R56). The stamps the tracker held are cleared with it (log entry 12). -/
def enterFree (p : Pocket) (s : State) : State :=
  let s := (enterState p .free s).modTracker p fun t =>
    { t with programme := none, cycleStamp := 0, newestStamp := 0, paid := 0, trips := 0, context := none }
  let s := s.modSchedule p fun c => { c with elapsed := 0 }
  s.modOutput p fun o => { o with latch := o.latch && (s.line p).limTripped }

/-- Entry to HELD; `tumble` tells whether the cooling tumble starts (R22, R58). -/
def enterHeld (p : Pocket) (r : HeldReason) (tumble : Bool) (s : State) : State :=
  (enterState p (.held r) s).modTracker p fun t => { t with held := if tumble then some 0 else none }

/-- Entry to CLOSING: the pocket's unstarted LOSS entry leaves the list (R146) and a CLOSE request is placed (R23). -/
def enterClosing (p : Pocket) (r : CloseReason) (paid elapsed : Nat) (s : State) : State :=
  enqueue ⟨p, .close r paid elapsed⟩ (enterState p (.closing r) (dropLoss p s))

/-- Entry to PAUSED, with its return phase (R18, R20). -/
def enterPaused (p : Pocket) (r : RunPhase) (s : State) : State := enterState p (.paused r) s

/-- The schedule at an entry to ANTICREASE at a position (R34, R43). -/
def Schedule.begin (position period tumble : Nat) (mark : Bool) : Schedule where
  elapsed := position
  acc := 0
  boundary := some ((position / period + 1) * period)
  tumble := if tumble ≠ 0 ∧ position ≠ 0 ∧ (mark ∨ position % period = 0) then .due else .rest
  tumbleEnd := none
  skipped := 0

/-- Entry to ANTICREASE at a position; a pocket without a programme has no schedule. -/
def enterAnticrease (p : Pocket) (position : Nat) (mark : Bool) (s : State) : State :=
  let s := enterState p .anticrease s
  match (s.tracker p).programme with
  | some g => s.modSchedule p fun _ => Schedule.begin position g.period g.tumble mark
  | none => s

/-! ## Snapshots and contexts (R27 to R30) -/

/-- The loss snapshot that the pocket's live state gives. -/
def State.liveSnapshot (s : State) (p : Pocket) (phase : LossPhase) : Snapshot where
  body := s.progress p phase
  programme := (s.tracker p).programme
  cycleStamp := (s.tracker p).cycleStamp

/-- An active pocket takes its loss snapshot (R27). -/
def takeSnapshot (p : Pocket) (s : State) : State :=
  match (s.tracker p).state.lossPhase with
  | some phase => s.modTracker p fun t => { t with snapshot := some (s.liveSnapshot p phase) }
  | none => s

/-- The resume context that a snapshot gives (R14, R29, R30). Its cycle stamp is the one the tracker holds now, which is
the writer's (R100), even where a re-emitted OPEN completed after the snapshot (log entry 28). -/
def State.contextOf (s : State) (p : Pocket) (n : Snapshot) : Context where
  source := (s.tracker p).newestStamp
  cycleStamp := (s.tracker p).cycleStamp
  phase := n.body.phase
  paid := n.body.paid
  elapsed := n.body.elapsed
  exhaust := if n.body.stale then none else some n.body.exhaust
  inlet := n.body.inlet
  trips := n.body.trips
  programme := n.programme
  stallSource := s.stallSource
  mark := markFor n.programme n.body.phase

/-- An active pocket moves to PENDING at LOST, with the context of its snapshot or else of its live state, and its stall
timer is asked for when it does not run (R29, R90). -/
def toPending (p : Pocket) (s : State) : State :=
  match (s.tracker p).state.lossPhase with
  | some phase =>
    let n := (s.tracker p).snapshot.getD (s.liveSnapshot p phase)
    let c := s.contextOf p n
    let s := (enterState p .pending s).modTracker p fun t => { t with programme := none, context := some c }
    if (s.stall p).running then s else startStall p .firm s
  | none => s

/-- The origin of a stall timer started at an OPEN or ADOPT completion (R90). -/
def State.frozenOrigin (s : State) : Origin := if s.mains.state = .faltering then .provisional else .firm

/-- A loss takes hold of a pocket that becomes active now: the paid clocks are frozen, or the mains is LOST (R28). -/
def State.lossHolds (s : State) : Bool := s.frozen || s.mains.state == .lost

/-- A pocket made active by an OPEN or ADOPT completion that a loss takes hold of takes its snapshot, starts its stall timer
and joins the LOSS list of the capture in progress (R28, R90, R144, R146, R171); when the mains is LOST it moves to PENDING
at once. After a ride-through and in QUALIFYING no loss takes hold of it (log entry 46). A pocket that its plan has closed, a
FINISH plan or a RESUME_ANTICREASE plan with the door open, is not active here, and stays in CLOSING (log entry 39). -/
def activation (p : Pocket) (s : State) : State :=
  let s :=
    if s.lossHolds && (s.tracker p).state.active then
      let s := startStall p s.frozenOrigin (takeSnapshot p s)
      match s.capture.reason with
      | some r => joinSnapshot r p s
      | none => s
    else s
  if s.mains.state = .lost then toPending p s else s

/-! ## The writer's notices (R115, R116): a stamp when the record was written, none when it was not -/

/-- The pocket's newest record has a new stamp, which a context takes as its source (R12, R30; log entry 13). -/
def noteNewest (p : Pocket) (stamp : Option Nat) (s : State) : State :=
  match stamp with
  | some n =>
    s.modTracker p fun t => { t with newestStamp := n, context := t.context.map fun c => { c with source := n } }
  | none => s

/-- The OPEN of an accepted OPEN_CYCLE is done (R7). -/
def completeOpen (p : Pocket) (g : Programme) (stamp : Option Nat) (s : State) : State :=
  let phase := runPhaseFor g.initialPaid g.coolLen
  let note := (s.tracker p).doorNote
  let s := (noteNewest p stamp s).modTracker p fun t =>
    { t with
      programme := some g
      cycleStamp := stamp.getD t.cycleStamp
      paid := g.initialPaid
      paidAcc := 0
      trips := 0
      periodic := 0 }
  let s := s.modSchedule p fun c => { c with elapsed := 0 }
  let s := enterState p (if note then .paused phase else phase.state) s
  let s := release (.opened p) .ok (byte phase.lossPhase.code :: le32 (s.tracker p).cycleStamp) s
  settleOutputs (activation p s)

/-- A re-emitted OPEN is done (R26): an active pocket takes its stamp and asks for a REEMIT checkpoint; the context of an
interrupted one takes the cycle stamp that the writer now holds (R100; log entry 28). -/
def completeReemit (p : Pocket) (stamp : Option Nat) (s : State) : State :=
  let s := (noteNewest p stamp s).modTracker p fun t =>
    { t with
      cycleStamp := stamp.getD t.cycleStamp
      context := t.context.map fun c => { c with cycleStamp := stamp.getD c.cycleStamp } }
  requestCheckpoint p .reemit s

/-- The pocket state that an adopted plan leads to, but for ANTICREASE, HELD and CLOSING, which have entries of their
own (R169, R170). -/
def runOrPaused (doorOpen : Bool) (r : RunPhase) : PocketState := if doorOpen then .paused r else r.state

/-- The plan's state is taken (R169, R170, R43, R44). -/
def enterPlan (p : Pocket) (l : Plan) (s : State) : State :=
  let door := (s.line p).doorOpen
  let setElapsed (n : Nat) (s : State) : State := s.modSchedule p fun c => { c with elapsed := n }
  match l.kind with
  | .resumeHeat => enterState p (runOrPaused door (runPhaseFor l.paid (s.tracker p).coolLen)) (setElapsed 0 s)
  | .resumeCool => enterState p (runOrPaused door .cool) (setElapsed 0 s)
  | .resumeAnticrease =>
    let s := enterAnticrease p l.position l.recovery s
    if door then enterClosing p .door 0 l.position s else s
  | .resumePaused => enterPaused p (runPhaseFor l.paid (s.tracker p).coolLen) (setElapsed l.position s)
  | .holdStale => enterHeld p .stale (!door) (setElapsed l.position s)
  | .holdOrphan => enterHeld p .orphan (!door) (setElapsed l.position s)
  | .holdFault => enterHeld p .faultAtLoss (!door) (setElapsed l.position s)
  | .finish => enterClosing p l.close 0 l.position (setElapsed l.position s)

/-- The ADOPT is done: the stall timer is cleared, the cycle is restored from the context, the reply is sent and the
plan's state is taken (R92, R169). -/
def completeAdopt (p : Pocket) (l : Plan) (stamp : Option Nat) (s : State) : State :=
  match (s.tracker p).context with
  | none => s
  | some c =>
    let s := (stopStall p s).modTracker p fun t =>
      { t with
        programme := c.programme
        cycleStamp := c.cycleStamp
        newestStamp := stamp.getD c.source
        paid := l.paid
        paidAcc := 0
        trips := c.trips
        periodic := 0
        context := none }
    let s := release (.adopted p) .ok (planFields l) s
    settleOutputs (activation p (enterPlan p l s))

/-- The CLOSE is done (R23, R92). The outputs settle, as after every entry to a state. -/
def completeClose (p : Pocket) (r : CloseReason) (paid elapsed : Nat) (s : State) : State :=
  let s := settleOutputs (stopStall p (enterFree p s))
  release (if r = .discard then .discarded p else .stopped p) .ok (le16 paid ++ le16 elapsed) s

/-- The owner acts on the end of a record request (R115, R116). -/
def notify (r : Request) (stamp : Option Nat) (s : State) : State :=
  match r.data with
  | .openCycle g false => completeOpen r.pocket g stamp s
  | .openCycle _ true => completeReemit r.pocket stamp s
  | .checkpoint _ _ => noteNewest r.pocket stamp s
  | .loss _ _ => noteNewest r.pocket stamp s
  | .adopt l _ _ _ _ => completeAdopt r.pocket l stamp s
  | .close reason paid elapsed => completeClose r.pocket reason paid elapsed s

/-- The owner acts on the drop of a record request (R145): a dropped OPEN_CYCLE or ADOPT is answered ABORTED, and nothing
else brings anything. -/
def notifyDropped (r : Request) (s : State) : State :=
  match r.data with
  | .openCycle _ false => release (.opened r.pocket) .aborted [] (settleOutputs (enterFree r.pocket s))
  | .adopt .. => release (.adopted r.pocket) .aborted [] (settleOutputs (enterState r.pocket .pending s))
  | _ => s

/-- The pocket's newest record is lost (R26). -/
def newestLost (p : Pocket) (s : State) : State := requestCheckpoint p .reemit s

/-- The pocket's cycle OPEN is lost (R26): an active pocket with a programme re-emits it. -/
def openLost (p : Pocket) (s : State) : State :=
  match (s.tracker p).state.active, (s.tracker p).programme with
  | true, some g => enqueue ⟨p, .openCycle g true⟩ s
  | _, _ => s

/-! ## The clocks (R9, R10, R25, R33 to R41) -/

/-- The paid clock of the pocket counts (R9). -/
def State.paidCounts (s : State) (p : Pocket) : Bool :=
  (s.tracker p).state.runs && (s.output p).motor && !s.frozen

/-- The anti-crease limit of the pocket's programme, 0 when it holds none. -/
def Tracker.limit (t : Tracker) : Nat :=
  match t.programme with
  | some g => g.limit
  | none => 0

/-- The anti-crease period of the pocket's programme, 0 when it holds none. -/
def Tracker.period (t : Tracker) : Nat :=
  match t.programme with
  | some g => g.period
  | none => 0

/-- One paid second passes (R9, R10). -/
def paidSecond (p : Pocket) (s : State) : State :=
  let t := s.tracker p
  let left := t.paid - 1
  let s := s.modTracker p fun t => { t with paid := left, paidAcc := 0 }
  match t.state with
  | .heat =>
    if left = t.coolLen then requestCheckpoint p .phase (settleOutputs (enterState p .cool s)) else s
  | .cool =>
    if left ≠ 0 then s
    else if t.limit ≠ 0 then requestCheckpoint p .phase (settleOutputs (enterAnticrease p 0 false s))
    else settleOutputs (enterClosing p .anticreaseNone 0 0 s)
  | _ => s

/-- A_e has reached the next boundary (R35, R38). -/
def Schedule.atBoundary (period tumble : Nat) (c : Schedule) : Schedule :=
  match c.tumble with
  | .rest => { c with boundary := some (c.elapsed + period), tumble := if tumble = 0 then .rest else .due }
  | .due => { c with boundary := some (c.elapsed + period), skipped := raise Config.countMax c.skipped }
  | .running => { c with boundary := some (c.elapsed + period) }

/-- A_e has reached the tumble end (R37). -/
def Schedule.atTumbleEnd (period tumble : Nat) (motorOn : Bool) (c : Schedule) : Schedule :=
  if c.boundary = some c.elapsed then
    let next := c.elapsed + period
    if motorOn then { c with boundary := some next, tumbleEnd := some (min (c.elapsed + tumble) next) }
    else { c with boundary := some next, tumble := .due, tumbleEnd := none }
  else { c with tumble := .rest, tumbleEnd := none }

/-- The tests of the tumble end and of the next boundary, in that order (R33). -/
def Schedule.tests (period tumble : Nat) (motorOn : Bool) (c : Schedule) : Schedule :=
  if c.tumble = .running ∧ c.tumbleEnd = some c.elapsed then c.atTumbleEnd period tumble motorOn
  else if c.boundary = some c.elapsed then c.atBoundary period tumble
  else c

/-- The schedule as the limit is reached: a waiting tumble counts as skipped (R41). -/
def Schedule.atLimit (c : Schedule) : Schedule :=
  if c.tumble = .due then { c with skipped := raise Config.countMax c.skipped } else c

/-- One anti-crease second passes (R33, R41). -/
def anticreaseSecond (p : Pocket) (s : State) : State :=
  let t := s.tracker p
  let s := s.modSchedule p fun c => { c with elapsed := c.elapsed + 1, acc := 0 }
  if t.limit ≤ (s.schedule p).elapsed then
    let s := s.modSchedule p (·.atLimit)
    settleOutputs (enterClosing p .limitEnd 0 (s.schedule p).elapsed s)
  else settleOutputs (s.modSchedule p (·.tests t.period t.tumbleLen (s.output p).motor))

/-- The anti-crease clock of the pocket counts (R33). -/
def State.elapsedCounts (s : State) (p : Pocket) : Bool := (s.tracker p).state == .anticrease && !s.frozen

/-- The periodic count of the pocket runs (R25). -/
def State.periodicCounts (s : State) (p : Pocket) : Bool := (s.tracker p).state.active && !s.frozen

end Sys2Proof.Machine
end

