-- ==== Sys2Proof/Machine/Planner.lean ====
section
/-! DEFINITION. The Resume Planner (R156 to R166) and the guard-tumble decision (R174). -/

namespace Sys2Proof.Machine

/-- The halving time of a load class (Inputs). -/
def Settings.halving (g : Settings) : LoadClass → Nat
  | .light => g.halfLight
  | .normal => g.halfNormal
  | .heavy => g.halfHeavy

/-- The exhaust used for a plan (R158): an absent one is the setpoint, or 80 °C when there is no programme. -/
def Context.exhaustUsed (c : Context) : Nat :=
  match c.exhaust, c.programme with
  | some x, _ => x
  | none, some g => g.setpoint
  | none, none => 80

/-- The excess E (R159). -/
def Context.excess (c : Context) : Nat := ((c.exhaustUsed : Int) - c.inlet).toNat

/-- The decayed excess of a programme's load after a stall, none when the stall is unbounded (R159). -/
def decayed (excess halving : Nat) : Option Nat → Nat
  | none => 0
  | some s =>
    let k := s / halving
    let r := s % halving
    if 8 ≤ k then 0
    else
      let e := excess / 2 ^ k
      e - e * r / (2 * halving)

/-- The decayed excess E_L of a context (R158, R159): an ORPHAN context has no decay. -/
def Context.decayedExcess (g : Settings) (c : Context) (stall : Option Nat) : Nat :=
  match c.programme with
  | some m => decayed c.excess (g.halving m.loadClass) stall
  | none => c.excess

/-- The estimated load temperature T_L (R160). -/
def Context.loadTemp (g : Settings) (c : Context) (stall : Option Nat) : Int :=
  c.inlet + (c.decayedExcess g stall : Int)

/-- The stall of a computation, none when it is unbounded (R157). -/
def State.planStall (s : State) (p : Pocket) (c : Context) : Option Nat :=
  match c.stallSource with
  | .unbounded => none
  | .timer => s.stallRead p

/-- A plan with the figures that every plan reports (R161, R166). -/
def Context.plan (g : Settings) (c : Context) (stall : Option Nat) (kind : PlanKind) (phase : Option LossPhase)
    (credit paid position : Nat) (recovery : Bool) : Plan where
  kind := kind
  phase := phase
  loadTemp := c.loadTemp g stall
  decayed := c.decayedExcess g stall
  credit := credit
  paid := paid
  position := position
  recovery := recovery
  stall := stall
  source := c.source
  close := if kind = .finish ∧ c.phase = .anticrease then .limitEnd else .anticreaseNone

/-- A hold plan (R165). -/
def Context.hold (g : Settings) (c : Context) (stall : Option Nat) (kind : PlanKind) (r : HeldReason) : Plan :=
  c.plan g stall kind (some (.held r)) 0 c.paid c.elapsed false

/-- The raw credit of a HEAT plan (R162). -/
def Context.rawCredit (g : Settings) (c : Context) (setpoint : Nat) (stall : Option Nat) : Nat :=
  min g.creditCap (((setpoint : Int) - c.loadTemp g stall).toNat * g.rewarmRate)

/-- The plan of a HEAT context (R162). The phase it leads to is COOL when P′ is at or below the cool length, as R169
gives the state entered (log entry 18). -/
def Context.heatPlan (g : Settings) (c : Context) (m : Programme) (stall : Option Nat) : Plan :=
  let resumed :=
    let paid := min Config.paidMax (c.paid + c.rawCredit g m.setpoint stall)
    c.plan g stall .resumeHeat (some (runPhaseFor paid m.coolLen).lossPhase) (paid - c.paid) paid c.elapsed false
  match stall with
  | none => c.hold g stall .holdStale .stale
  | some s => if g.abandon < s then c.hold g stall .holdStale .stale else resumed

/-- The cool remainder C′ (R163): the quotient is rounded up. -/
def Context.coolRemainder (g : Settings) (c : Context) (stall : Option Nat) : Nat :=
  if c.excess = 0 then 0 else (c.paid * c.decayedExcess g stall + (c.excess - 1)) / c.excess

/-- The plan of a COOL context (R163). -/
def Context.coolPlan (g : Settings) (c : Context) (m : Programme) (stall : Option Nat) : Plan :=
  let left := c.coolRemainder g stall
  if left ≠ 0 then c.plan g stall .resumeCool (some .cool) 0 left c.elapsed false
  else if m.limit ≠ 0 then c.plan g stall .resumeAnticrease (some .anticrease) 0 0 0 false
  else c.plan g stall .finish none 0 0 0 false

/-- The plan of an ANTICREASE context (R164). -/
def Context.anticreasePlan (g : Settings) (c : Context) (m : Programme) (stall : Option Nat) : Plan :=
  let finish := c.plan g stall .finish none 0 0 m.limit false
  match stall with
  | none => finish
  | some s =>
    if m.limit ≤ c.elapsed + s then finish
    else
      c.plan g stall .resumeAnticrease (some .anticrease) 0 0 (c.elapsed + s) (decide (m.period ≤ s) && m.tumble != 0)

/-- The plan of a paused context (R165). -/
def Context.pausedPlan (g : Settings) (c : Context) (m : Programme) (stall : Option Nat) : Plan :=
  c.plan g stall .resumePaused (some (.paused (runPhaseFor c.paid m.coolLen))) 0 c.paid c.elapsed false

/-- The plan of a context without ORPHAN or FAULT_AT_LOSS (R161). -/
def Context.phasePlan (g : Settings) (c : Context) (m : Programme) (stall : Option Nat) : Plan :=
  match c.phase with
  | .heat => c.heatPlan g m stall
  | .cool => c.coolPlan g m stall
  | .anticrease => c.anticreasePlan g m stall
  | .paused _ => c.pausedPlan g m stall
  | .held _ => c.hold g stall .holdFault .faultAtLoss

/-- The plan of a context (R161). -/
def planFor (g : Settings) (c : Context) (stall : Option Nat) : Plan :=
  match c.mark, c.programme with
  | .faultAtLoss, _ => c.hold g stall .holdFault .faultAtLoss
  | .orphan, _ => c.hold g stall .holdOrphan .orphan
  | .none, none => c.hold g stall .holdOrphan .orphan
  | .none, some m => c.phasePlan g m stall

/-- The pocket's plan, computed now (R156). -/
def State.planNow (s : State) (p : Pocket) (c : Context) : Plan := planFor s.settings c (s.planStall p c)

/-- The phase at loss is HEAT or COOL. -/
def LossPhase.warm : LossPhase → Bool
  | .heat | .cool => true
  | _ => false

/-- The three conditions of the guard-tumble decision (R174). -/
def State.needsGuard (s : State) (p : Pocket) : Bool :=
  match (s.tracker p).state, (s.tracker p).context with
  | .pending, some c =>
    c.phase.warm && decide ((s.settings.hazard : Int) ≤ c.loadTemp s.settings (s.planStall p c)) && !(s.line p).doorOpen
  | _, _ => false

/-- The decision for one pocket; a tumble that runs keeps its timer (R59, R174). -/
def decideGuard (p : Pocket) (s : State) : State :=
  if s.needsGuard p && (s.output p).guard.isNone then s.modOutput p fun o => { o with guard := some 0 } else s

/-- Announce the return when it is owed, the mains is PRESENT and the scan has completed (R87), with the guard-tumble
decision for both pockets (R174). Whoever announces has settled the outputs before it (log entry 49). -/
def announceReturn (s : State) : State :=
  if s.mains.returnOwed && s.mains.state == .present && !s.scanning then
    settleOutputs (forPockets decideGuard (s.setMains { s.mains with returnOwed := false }))
  else s

end Sys2Proof.Machine
end

