-- ==== Sys2Proof/Machine/Journal.lean ====
section
/-! DEFINITION. The Journal Writer's record attempts: target selection, write and verify, retirement, the map write, and
the protection index (R103 to R116, R139). -/

namespace Sys2Proof.Machine

/-! ## Protection and target selection (R104, R105, R109) -/

/-- An entry of the pocket's protection index names the slot. -/
def Protection.names (q : Protection) (i : Nat) : Bool := q.newest == some i || q.openSlot == some i

/-- The slot is protected. -/
def Writer.protects (w : Writer) (i : Nat) : Bool := w.protection.a.names i || w.protection.b.names i

/-- The slot may be written by target selection; a relocation copy also passes over its original (R124). -/
def Writer.eligible (w : Writer) (original : Option Nat) (i : Nat) : Bool :=
  !w.protects i && !w.retired.contains i && original != some i

/-- The slots in the order in which the cursor steps over them, the slot it names last. -/
def slotsAfter (cursor : Nat) : List Nat := (List.range Config.slotCount).map fun k => (cursor + 1 + k) % Config.slotCount

/-- The target of the next write, none when no slot is eligible (R109). -/
def Writer.target (w : Writer) (original : Option Nat) : Option Nat :=
  (slotsAfter w.cursor).find? fun i => w.eligible original i

/-! ## Retirement (R111, R112) and writes by target selection -/

/-- The set of slots with one added, in rising order. -/
def insertSlot (i : Nat) : List Nat → List Nat
  | [] => [i]
  | k :: rest => if i < k then i :: k :: rest else if i = k then k :: rest else k :: insertSlot i rest

/-- The demand scrub that a frame of the transmit list brings is dropped when it is of the slot. -/
def TxFrame.forget (i : Nat) (f : TxFrame) : TxFrame := { f with demand := f.demand.filter (·.slot != i) }

/-- The demand scrubs of a slot are owed no more, nor those that a frame not yet sent would bring (R121; log entry 17). -/
def forgetDemands (i : Nat) (s : State) : State :=
  (s.setWriter { s.writer with demands := s.writer.demands.filter (·.slot != i) }).setLink
    { s.link with sending := s.link.sending.map (·.forget i), waiting := s.link.waiting.map (·.forget i) }

/-- A slot that is written by target selection or retired is no longer what was found in it: a demand scrub of it is
dropped, an unfinished erase of it is cleared (R140), and it leaves the scan's repair list (log entry 17). -/
def forgetSlot (i : Nat) (s : State) : State :=
  ((forgetDemands i s).setScrub
    { s.scrub with unfinished := if s.scrub.unfinished = some i then none else s.scrub.unfinished }).setScan
    { s.scan with repairs := s.scan.repairs.filter (· != i) }

/-- The slot is marked in the working retired set, and a map write is due (R111, R113, R117). -/
def markRetired (i : Nat) (s : State) : State :=
  let set := insertSlot i s.writer.retired
  forgetSlot i (s.setWriter { s.writer with
    retired := set
    worn := s.writer.worn || decide (Config.wornAt ≤ set.length)
    mapDue := .first })

/-! ## Record attempts (R109 to R111, R116) -/

/-- The counter after a stamp was taken (R103). -/
def nextStamp (n : Nat) : Option Nat := if n < Config.lastStamp then some (n + 1) else none

/-- The request ends unwritten (R116): a CLOSE clears what a written one would, and a LOSS counts as not written
(R147). -/
def endUnwritten (r : Request) (s : State) : State :=
  let s := s.setWriter { s.writer with
    protection := if r.data.isClose then s.writer.protection.set r.pocket Protection.empty else s.writer.protection }
  let s :=
    if r.data.isLoss then s.setCapture { s.capture with notWritten := raise 255 s.capture.notWritten } else s
  notify r none s

/-- Start an attempt of a request: it takes a stamp and a target, or ends unwritten (R103, R109, R110, R116). -/
def startAttempt (r : Request) (retry : Nat) (s : State) : State :=
  match s.writer.counter, s.writer.target none with
  | some n, some i =>
    forgetSlot i (s.setWriter { s.writer with
      op := .record ⟨r, retry, n, i, r.bytes n (s.writer.protection.get r.pocket).cycleStamp⟩
      counter := nextStamp n
      worn := s.writer.worn || (nextStamp n).isNone
      cursor := i })
  | _, _ => endUnwritten r s

/-- The pocket's protection entries after a record of it completed (R104). -/
def Protection.after (q : Protection) (d : RecordData) (slot stamp : Nat) : Protection :=
  match d with
  | .openCycle _ _ => ⟨some slot, some slot, stamp⟩
  | .close _ _ _ => Protection.empty
  | _ => { q with newest := some slot }

/-- A record is complete (R110): the index moves, the capture counts a LOSS or CLOSE (R147), and the owner is told. -/
def completeRecord (t : Attempt) (s : State) : State :=
  let s := s.setWriter { s.writer with
    protection := s.writer.protection.modify t.req.pocket (·.after t.req.data t.slot t.stamp) }
  let s :=
    if s.capturing && !s.capture.ended && (t.req.data.isLoss || t.req.data.isClose) then
      s.setCapture { s.capture with written := raise 255 s.capture.written }
    else s
  notify t.req (some t.stamp) s

/-- The read-back mismatched (R111): the slot is retired, and the record waits for its next attempt or, after its
fourth, ends unwritten. -/
def mismatchRecord (t : Attempt) (s : State) : State :=
  let s := markRetired t.slot s
  if 3 ≤ t.retry then endUnwritten t.req s
  else s.setWriter { s.writer with carried := some (t.req, t.retry + 1) }

/-- The read-back of a record attempt ends (R110). -/
def attemptDone (t : Attempt) (back : ReadBack) (s : State) : State :=
  let s := (s.setSlot t.slot ((s.slot t.slot).written t.bytes back)).setWriter { s.writer with op := .idle }
  match back with
  | .matched => completeRecord t s
  | .mismatched _ => mismatchRecord t s

/-! ## The map (R113) -/

/-- Start the map write that is due. -/
def startMapWrite (s : State) : State :=
  match s.writer.mapDue with
  | .no => s
  | .first => s.setWriter { s.writer with op := .mapWrite false, mapDue := .no }
  | .second => s.setWriter { s.writer with op := .mapWrite true, mapDue := .no }

/-- The read-back of a map write ends: a first mismatch is followed by a second write. -/
def mapDone (second : Bool) (back : ReadBack) (s : State) : State :=
  let s := s.setArray { s.array with map := s.array.map.written s.writer.retired back }
  s.setWriter { s.writer with
    op := .idle
    mapDue := if back = .matched ∨ second then s.writer.mapDue else .second }

/-! ## A protected record found lost (R105, R139) -/

/-- The pocket loses the protection of the slot, and its tracker is told which record is lost. -/
def loseProtectionOf (p : Pocket) (i : Nat) (s : State) : State :=
  let q := s.writer.protection.get p
  let newest := q.newest == some i
  let opened := q.openSlot == some i
  let s := s.setWriter { s.writer with
    protection := s.writer.protection.set p
      { q with newest := if newest then none else q.newest, openSlot := if opened then none else q.openSlot } }
  if opened then openLost p s else if newest then newestLost p s else s

/-- A slot found TORN loses its protection. -/
def loseProtection (i : Nat) (s : State) : State := forPockets (fun p => loseProtectionOf p i) s

end Sys2Proof.Machine
end

