-- ==== Sys2Proof/Machine/Repair.lean ====
section
/-! DEFINITION. Repairs and reads of slots: the erase test, the relocation, the steps of a scrub and where a capture stops
them, and the read-out of a slot (R119 to R124, R137 to R141). -/

namespace Sys2Proof.Machine

/-! ## The erase test (R123) -/

/-- The job in hand with what it still has to do. -/
def setNext (n : JobNext) (s : State) : State :=
  s.setWriter { s.writer with job := s.writer.job.map fun j => { j with next := n } }

/-- Start the erase test of a slot that is neither protected nor retired; the lost count goes up at the write into a slot
found TORN. The write takes away what an owed demand scrub of the slot was owed for (log entry 17). -/
def startErase (i : Nat) (f : Finding) (s : State) : State :=
  if s.writer.protects i || s.writer.retired.contains i then s
  else
    (forgetDemands i (s.setWriter { s.writer with
        op := .erase i f
        lost := if f = .torn then raise Config.countMax s.writer.lost else s.writer.lost })).setScrub
      { s.scrub with unfinished := if s.scrub.unfinished = some i then none else s.scrub.unfinished }

/-- The read-back of an ERASED write ends: the outcome is counted, and a slot read back with an error is retired. -/
def eraseDone (i : Nat) (f : Finding) (back : ReadBack) (s : State) : State :=
  let s := (s.setSlot i ((s.slot i).written erasedBytes back)).setWriter { s.writer with op := .idle }
  match back with
  | .matched =>
    if f = .duplicate then s else s.setWriter { s.writer with soft := raise Config.countMax s.writer.soft }
  | .mismatched _ => markRetired i (s.setWriter { s.writer with hard := raise Config.countMax s.writer.hard })

/-! ## The relocation (R124) -/

/-- Start a copy attempt; without an eligible slot the relocation ends unwritten. -/
def startCopy (original : Nat) (bytes : List Byte) (retry : Nat) (s : State) : State :=
  match s.writer.target (some original) with
  | some i =>
    forgetSlot i (s.setWriter { s.writer with op := .copy ⟨original, i, bytes, retry⟩, cursor := i })
  | none => s

/-- An entry that named the original names the copy (R104). -/
def Protection.moved (original target : Nat) (q : Protection) : Protection :=
  { q with
    newest := if q.newest = some original then some target else q.newest
    openSlot := if q.openSlot = some original then some target else q.openSlot }

/-- The read-back of a copy attempt ends: a complete copy takes the protection and the erase test of the original is
next; a mismatch retires the target, and the fourth ends the relocation. -/
def copyDone (c : Copying) (back : ReadBack) (s : State) : State :=
  let s := (s.setSlot c.target ((s.slot c.target).written c.bytes back)).setWriter { s.writer with op := .idle }
  match back with
  | .matched =>
    setNext .eraseOriginal (s.setWriter { s.writer with
      protection :=
        ⟨s.writer.protection.a.moved c.original c.target, s.writer.protection.b.moved c.original c.target⟩ })
  | .mismatched _ =>
    setNext (if 3 ≤ c.retry then .finish else .copy c.bytes (c.retry + 1)) (markRetired c.target s)

/-! ## Jobs (R138, R140, R141) -/

/-- The patrol cursor moves past a slot (R138). -/
def patrolPast (i : Nat) (s : State) : State :=
  s.setScrub { s.scrub with cursor := (i + 1) % Config.slotCount }

/-- The job ends; a patrol step moves the patrol cursor past its slot (R138). -/
def endJob (j : Job) (s : State) : State :=
  let s := s.setWriter { s.writer with job := none }
  if j.owner = .patrol then patrolPast j.slot s else s

/-- The slot that a patrol step works on: the first at or after the patrol cursor that is not retired, none when every
slot is retired (R138). -/
def State.patrolSlot (s : State) : Option Nat :=
  (slotsAfter (s.scrub.cursor + Config.slotCount - 1)).find? fun i => !s.writer.retired.contains i

/-- The patrol step reads its own slot, or ends when there is none (R138). The slot is chosen here, after the test of an
unfinished erase, which may have retired a slot (log entry 42). -/
def startPatrolRead (s : State) : State :=
  match s.patrolSlot with
  | some i => s.setWriter { s.writer with op := .scrubRead i, job := some ⟨.patrol, i, .readSlot⟩ }
  | none => s.setWriter { s.writer with job := none }

/-- Go on with a job whose last operation, and any map write after it, has ended. -/
def continueJob (j : Job) (s : State) : State :=
  match j.next with
  | .readSlot => startPatrolRead s
  | .copy bytes retry => startCopy j.slot bytes retry (setNext .finish s)
  | .erase f => startErase j.slot f (setNext .finish s)
  | .eraseOriginal => startErase j.slot .corrected (setNext .finish s)
  | .finish => endJob j s

/-- A capture stops a scrub step at its write boundary (R140): a copied original is left as the unfinished erase, in place
of one that a demand scrub has left standing (R141; log entry 52), and the patrol cursor moves past the slot of a step that
got so far or was complete, a step whose fourth copy attempt mismatched among them (log entry 44). A step stopped after its
unfinished erase and before its own read leaves the cursor unchanged (log entry 43). -/
def stopJob (j : Job) (s : State) : State :=
  match j.next with
  | .eraseOriginal => endJob j (s.setScrub { s.scrub with unfinished := some j.slot })
  | .finish => endJob j s
  | _ => s.setWriter { s.writer with job := none }

/-- What a finding leads to (R138). -/
def SlotRead.repair (r : SlotRead) : JobNext :=
  match r.condition, r.corrected with
  | .torn, _ => .erase .torn
  | .valid, true => .copy r.bytes 0
  | .erased, true => .erase .corrected
  | _, _ => .finish

/-- A scrub step's read ends (R138, R139). -/
def scrubRead (i : Nat) (decay : Decay (List Byte)) (s : State) : State :=
  let s := (s.setSlot i ((s.slot i).age decay)).setWriter { s.writer with op := .idle }
  let r := readSlot (s.slot i)
  let s := if r.condition = .torn then loseProtection i s else s
  setNext r.repair s

/-- Start a patrol step (R137, R138): an unfinished erase is made first. -/
def startPatrol (s : State) : State :=
  let s := s.setScrub { s.scrub with timer := 0, asked := false }
  match s.scrub.unfinished with
  | some i =>
    startErase i .corrected
      ((s.setWriter { s.writer with job := some ⟨.patrol, i, .readSlot⟩ }).setScrub { s.scrub with unfinished := none })
  | none => startPatrolRead s

/-- What a demand scrub does (R121, R141): the record that the read-out read is relocated. When its slot is the unfinished
erase and was found VALID, the erase test is all that is left to make. -/
def State.demandRepair (s : State) (d : Demand) : JobNext :=
  match d.finding with
  | .torn => .erase .torn
  | .erasedCorrected => .erase .corrected
  | .validCorrected bytes => if s.scrub.unfinished = some d.slot then .erase .corrected else .copy bytes 0

/-- Start a demand scrub. -/
def startDemand (d : Demand) (s : State) : State :=
  s.setWriter { s.writer with
    demands := s.writer.demands.erase d
    job := some ⟨.demand, d.slot, s.demandRepair d⟩ }

/-! ## Read-out (R119 to R121, R188) -/

/-- The progress flag of the next frame of a stream (R120). -/
def Stream.flag (t : Stream) : Nat :=
  if t.total = 1 then 0 else if t.left = t.total then 1 else if t.left = 1 then 3 else 2

/-- The frame of one slot (R120). -/
def streamFrame (t : Stream) (r : SlotRead) (demand : Option Demand) : TxFrame where
  kind := 0x8B
  tag := t.tag
  payload :=
    [Result.ok.code, byte t.flag, byte t.cursor, byte r.condition.code, byte (bit r.corrected)] ++ r.bytes
  stream := true
  demand := demand
  restart := false

/-- The link sends the slot's frame. -/
def sendSlot (r : SlotRead) (demand : Option Demand) (s : State) : State :=
  match s.link.stream with
  | some t => s.setLink (s.link.push (streamFrame t r demand))
  | none => s

/-- The demand scrub that a read-out finding brings (R121). -/
def SlotRead.demand (r : SlotRead) (i : Nat) : Option Demand :=
  match r.condition, r.corrected with
  | .torn, _ => some ⟨i, .torn, true⟩
  | .valid, true => some ⟨i, .validCorrected r.bytes, true⟩
  | .erased, true => some ⟨i, .erasedCorrected, true⟩
  | _, _ => none

/-- Serve the read that a stream waits for: a retired slot is not read, and its frame is sent at once (R119). -/
def startReadout (i : Nat) (s : State) : State :=
  let s := s.setWriter { s.writer with readAsked := none }
  if s.writer.retired.contains i then sendSlot ⟨.retired, zeroRecord, false⟩ none s
  else s.setWriter { s.writer with op := .readoutRead i true }

/-- A read-out read ends: a protected slot found TORN loses its protection, and the frame is sent when its stream still
runs (R105, R121, R122). -/
def readoutDone (i : Nat) (live : Bool) (decay : Decay (List Byte)) (s : State) : State :=
  let s := (s.setSlot i ((s.slot i).age decay)).setWriter { s.writer with op := .idle }
  let r := readSlot (s.slot i)
  let s := if r.condition = .torn then loseProtection i s else s
  if live then sendSlot r (r.demand i) s else s

end Sys2Proof.Machine
end

