-- ==== Sys2Proof/Machine/Scan.lean ====
section
/-! DEFINITION. The Recovery Scan: its phases, the index, the outcomes and the contexts it builds (R125 to R135). -/

namespace Sys2Proof.Machine

/-! ## Phases MAP and PASS (R126, R127) -/

/-- Phase PASS begins. -/
def enterPass (s : State) : State := s.setScan { s.scan with phase := .pass }

/-- The read of the map ends (R126): the working set is loaded, a corrected map is written again, and a failed one leaves
the set empty. -/
def scanMapRead (decay : Decay (List Nat)) (s : State) : State :=
  let map := s.array.map.age decay
  let s := s.setArray { s.array with map := map }
  match map.integrity with
  | .unreadable => enterPass (s.setWriter { s.writer with op := .idle, retired := [], mapLost := true })
  | .sound => enterPass (s.setWriter { s.writer with op := .idle, retired := map.content, mapLost := false })
  | .oneBit => s.setWriter { s.writer with op := .idle, retired := map.content, mapLost := false, mapDue := .first }

/-- A note joins the slot summary, and the cursor names the next slot; after slot 95 it stands at 96, above its range, until
the scan is done (log entry 53). -/
def Scan.note (n : SlotNote) (c : Scan) : Scan := { c with summary := c.summary ++ [n], cursor := n.slot + 1 }

/-- The pass goes on from its cursor: a retired slot is recorded without a read, another is read, and after slot 95 the
scan enters RESOLVE. -/
def passFrom : Nat → State → State
  | 0, s => s
  | fuel + 1, s =>
    let k := s.scan.cursor
    if Config.slotCount ≤ k then s.setScan { s.scan with phase := .resolve }
    else if s.writer.retired.contains k then passFrom fuel (s.setScan (s.scan.note ⟨k, .retired, [], false⟩))
    else s.setWriter { s.writer with op := .scanRead k }

/-- The scan's read of a slot ends (R127). -/
def scanSlotRead (k : Nat) (decay : Decay (List Byte)) (s : State) : State :=
  let s := (s.setSlot k ((s.slot k).age decay)).setWriter { s.writer with op := .idle }
  let r := readSlot (s.slot k)
  let s := s.setScan (s.scan.note ⟨k, r.condition, if r.condition = .valid then r.bytes else [], r.corrected⟩)
  match r.repair with
  | .copy _ _ => s.setScan { s.scan with repairs := s.scan.repairs ++ [k] }
  | .finish => s
  | next => s.setWriter { s.writer with job := some ⟨.scan, k, next⟩ }

/-- The slot is recorded as ERASED, or as RETIRED, after an erase test of the pass or of RESOLVE, and leaves the repair
list (R127, R128). -/
def noteErased (i : Nat) (s : State) : State :=
  if s.scan.phase = .pass ∨ s.scan.phase = .resolve then
    let condition : Condition := if s.writer.retired.contains i then .retired else .erased
    s.setScan { s.scan with
      summary := s.scan.summary.map fun n => if n.slot = i then ⟨i, condition, [], false⟩ else n
      repairs := s.scan.repairs.filter (· != i) }
  else s

/-! ## Phases RESOLVE and INDEX (R128 to R132) -/

/-- The VALID slots of the summary. -/
def Scan.valid (c : Scan) : List SlotNote := c.summary.filter (·.condition == .valid)

/-- The VALID slots that share their stamp with a VALID slot of a higher index (R128). -/
def Scan.duplicates (c : Scan) : List Nat :=
  (c.valid.filter fun n => c.valid.any fun m => decide (n.slot < m.slot) && recStamp n.bytes == recStamp m.bytes).map
    (·.slot)

/-- The note of a slot. -/
def Scan.noteOf (c : Scan) (i : Nat) : Option SlotNote := c.summary.find? (·.slot == i)

/-- The note with the higher stamp. -/
def laterNote (n m : SlotNote) : SlotNote := if recStamp n.bytes < recStamp m.bytes then m else n

/-- The note with the highest stamp. -/
def newestNote : List SlotNote → Option SlotNote
  | [] => none
  | n :: rest => some (rest.foldl laterNote n)

/-- The newest record of a pocket (R129). -/
def Scan.newestOf (c : Scan) (p : Pocket) : Option SlotNote :=
  newestNote (c.valid.filter fun n => recPocket n.bytes == some p)

/-- The note is the OPEN with a stamp, of a pocket, its programme in range (R129). -/
def SlotNote.opens (n : SlotNote) (p : Pocket) (stamp : Nat) : Bool :=
  recKind n.bytes == some .openCycle && recPocket n.bytes == some p && recStamp n.bytes == stamp
    && (programmeOf n.bytes).isSome

/-- The cycle OPEN of a newest record (R129): the OPEN whose stamp is the record's cycle stamp field, also where the newest
record is an OPEN whose field differs from its own stamp (log entry 41). -/
def Scan.openOf (c : Scan) (p : Pocket) (newest : SlotNote) : Option SlotNote :=
  c.valid.find? fun n => n.opens p (recCycleStamp newest.bytes)

/-- The outcome of a newest record is PENDING (R130). -/
def endsPending (bs : List Byte) : Bool :=
  match recKind bs with
  | some .close => false
  | some .adopt => u8 bs 10 != 0
  | _ => true

/-- The index of a pocket (R129). -/
def Scan.indexOf (c : Scan) (p : Pocket) : ScanIndex :=
  match c.newestOf p with
  | none => ⟨none, none⟩
  | some n => ⟨some n.slot, (c.openOf p n).map (·.slot)⟩

/-- The protection entries that the scan hands over for a pocket (R132). -/
def Scan.protectionOf (c : Scan) (p : Pocket) : Protection :=
  match c.newestOf p with
  | some n =>
    if endsPending n.bytes then ⟨some n.slot, (c.openOf p n).map (·.slot), recCycleStamp n.bytes⟩ else Protection.empty
  | none => Protection.empty

/-- Phase INDEX: the index is built and the results are handed to the writer (R103, R109, R129, R132). -/
def scanIndex (s : State) : State :=
  let c := s.scan
  let last := newestNote c.valid
  (s.setWriter { s.writer with
      protection := ⟨c.protectionOf .a, c.protectionOf .b⟩
      counter := match last with | some n => nextStamp (recStamp n.bytes) | none => some 1
      cursor := match last with | some n => n.slot | none => Config.slotCount - 1 }).setScan
    { c with phase := .repair, index := ⟨c.indexOf .a, c.indexOf .b⟩ }

/-! ## Outcomes and DONE (R130, R131, R134) -/

/-- The context that a newest record gives, with the programme of its cycle OPEN (R131). -/
def recordContext (bs : List Byte) (programme : Option Programme) (source : StallSource) : Context :=
  let base (phase : LossPhase) (paid elapsed : Nat) (exhaust : Option Nat) (inlet : Int) (trips : Nat) : Context :=
    ⟨recStamp bs, recCycleStamp bs, phase, min Config.paidMax paid, min 7200 elapsed, exhaust, inlet, trips, programme,
      source, markFor programme phase⟩
  match recKind bs with
  | some .openCycle => base (runPhaseFor (u16 bs 21) (u16 bs 13)).lossPhase (u16 bs 21) 0 none 20 0
  | _ =>
    base (lossPhaseOf (u8 bs 10)) (u16 bs 11) (u16 bs 13) (if u8 bs 17 % 2 = 1 then none else some (min 150 (u8 bs 15)))
      (clampInlet (i8 bs 16)) (min 2 (u8 bs 18))

/-- The context of a pocket's outcome, none when the outcome is FREE (R130). -/
def State.outcome (s : State) (p : Pocket) : Option Context :=
  let c := s.scan
  match (c.index.get p).newest with
  | none => none
  | some i =>
    match c.noteOf i with
    | none => none
    | some n =>
      if endsPending n.bytes then
        let programme := match (c.index.get p).openSlot with
          | some k => match c.noteOf k with
            | some m => programmeOf m.bytes
            | none => none
          | none => none
        some (recordContext n.bytes programme s.stallSource)
      else none

/-- A tracker takes its pocket's outcome, rewrites the active flag, and the stall timer follows (R1, R2, R90, R92). -/
def takeOutcome (p : Pocket) (s : State) : State :=
  match s.outcome p with
  | some c =>
    startSaturated p ((enterState p .pending s).modTracker p fun t =>
      { t with context := some c, newestStamp := c.source })
  | none => stopStall p (s.setActive p false)

/-- The scan is done: the outcomes are taken, the journal state is set and, last, a return is announced (R117, R134; log entry
49). -/
def scanDone (s : State) : State :=
  let s := forPockets takeOutcome s
  let s := s.setWriter { s.writer with
    worn := decide (Config.wornAt ≤ s.writer.retired.length) || s.writer.counter.isNone }
  announceReturn (settleOutputs (s.setScan { Scan.start with phase := .done }))

/-! ## Going on -/

/-- The finding of the erase test that RESOLVE makes of a duplicate (R123, R128). -/
def Scan.duplicateFinding (c : Scan) (i : Nat) : Finding :=
  match c.noteOf i with
  | some n => if n.corrected then .corrected else .duplicate
  | none => .duplicate

/-- The next duplicate of RESOLVE is erased, or phase INDEX follows. -/
def resolveNext (s : State) : State :=
  match s.scan.erasures with
  | [] => scanIndex s
  | i :: rest =>
    (s.setScan { s.scan with erasures := rest }).setWriter
      { s.writer with job := some ⟨.scan, i, .erase (s.scan.duplicateFinding i)⟩ }

/-- The next corrected record is relocated, or the scan is done (R133). -/
def repairNext (s : State) : State :=
  match s.scan.repairs with
  | [] => scanDone s
  | i :: rest =>
    let bytes := match s.scan.noteOf i with | some n => n.bytes | none => []
    (s.setScan { s.scan with repairs := rest }).setWriter { s.writer with job := some ⟨.scan, i, .copy bytes 0⟩ }

/-- The pass goes on, and at its end the duplicates are listed. -/
def passNext (s : State) : State :=
  let s := passFrom (Config.slotCount + 1 + s.scan.summary.length) s
  if s.scan.phase = .resolve then s.setScan { s.scan with erasures := s.scan.duplicates } else s

/-- The scan's next move while no operation is in flight: the map write that is due, the repair in hand, and then what
its phase gives. Phase MAP has no more to do once a corrected map has been written again (R126). -/
def scanNext (s : State) : Option State :=
  if s.writer.mapDue ≠ .no then some (startMapWrite s)
  else
    match s.writer.job, s.scan.phase with
    | some j, _ => some (continueJob j s)
    | none, .map => some (enterPass s)
    | none, .pass => some (passNext s)
    | none, .resolve => some (resolveNext s)
    | none, .repair => some (repairNext s)
    | none, _ => none

end Sys2Proof.Machine
end

