-- ==== Sys2Proof/Machine/Capture.lean ====
section
/-! DEFINITION. The capture, and the Journal Writer's choice of its next operation (R106, R143 to R154). -/

namespace Sys2Proof.Machine

/-! ## Beginning and joining (R143 to R146, R152, R153) -/

/-- The queue at the beginning of a capture: its CLOSE entries stay and the others are dropped, oldest first (R145). -/
def dropQueue (s : State) : State :=
  let queue := s.writer.queue
  (queue.filter (!·.data.isClose)).foldl (fun s r => notifyDropped r s)
    (s.setWriter { s.writer with queue := queue.filter (·.data.isClose) })

/-- A capture begins (R143): the window opens, a stream ends, the LOSS list is formed and the queue's entries are dropped.
During the scan it has nothing to write and stands. -/
def beginCapture (reason : LossReason) (s : State) : State :=
  let s := endStream true s
  let s := s.setCapture
    { Capture.start with
      state := if s.scanning then .standing else .finishing
      reason := some reason
      window := true
      restart := reason == .restart }
  dropQueue (forPockets (joinSnapshot reason) s)

/-- A FALTERING entry or a sag-loss while a capture is in progress begins no second one: the window is open, new entries
take the reason, and the fresh snapshots join the list (R152). -/
def rejoinCapture (reason : LossReason) (s : State) : State :=
  forPockets (joinSnapshot reason) (s.setCapture { s.capture with reason := some reason, window := true })

/-- The capture of a FALTERING entry or a sag-loss. -/
def lossCapture (reason : LossReason) (s : State) : State :=
  if s.capturing then rejoinCapture reason s else beginCapture reason s

/-- The reply of a RESTART is released and the capture waits for the reset (R154). -/
def endRestart (state : CaptureState) (s : State) : State :=
  let s := s.setCapture { s.capture with state := state, ended := true }
  release .restart .ok [byte s.capture.written, byte s.capture.notWritten] s

/-- An active pocket without a snapshot takes one at the acceptance of a RESTART (R153). -/
def restartSnapshot (p : Pocket) (s : State) : State :=
  if (s.tracker p).snapshot.isSome then s else takeSnapshot p s

/-- A pocket's entry at a RESTART that joins a capture: an entry not yet started keeps its reason and takes the fresh body,
and a new one has reason RESTART (R153; log entry 45). -/
def joinRestart (p : Pocket) (s : State) : State :=
  match s.capture.losses.find? (·.pocket == p) with
  | some e => joinSnapshot e.reason p s
  | none => joinSnapshot .restart p s

/-- A RESTART joins the capture in progress; one in STANDING or STOPPED ends at that moment (R153, R154). `fresh` are the
pockets that took their snapshot at the acceptance. -/
def joinCapture (fresh : Pocket → Bool) (s : State) : State :=
  let s := s.setCapture { s.capture with restart := true, window := true }
  let s := forPockets (fun p s => if fresh p then joinRestart p s else s) s
  if s.capture.state = .standing ∨ s.capture.state = .stopped then endRestart s.capture.state s else s

/-- The loss window closes, and a capture without writes to make returns to NONE (R147, R148, R151, R152). -/
def closeWindow (s : State) : State :=
  if s.capture.state = .standing ∨ s.capture.state = .stopped then s.setCapture Capture.start
  else s.setCapture { s.capture with window := false }

/-! ## Capture writes (R147, R148) -/

/-- The capture returns to NONE. -/
def endCapture (s : State) : State := s.setCapture Capture.start

/-- No capture write remains (R147, R154). -/
def captureIdle (s : State) : State :=
  if s.capture.restart then endRestart .standing s
  else if s.capture.window then s.setCapture { s.capture with state := .standing }
  else endCapture s

/-- The carried record of a refused write: a LOSS counts as not written (log entry 15), a CHECKPOINT is discarded when the
pocket has one queued, and any other goes to the head of the queue (R148). -/
def returnCarried (s : State) : State :=
  match s.writer.carried with
  | none => s
  | some (r, _) =>
    let s := s.setWriter { s.writer with carried := none }
    if r.data.isLoss then s.setCapture { s.capture with notWritten := raise 255 s.capture.notWritten }
    else if r.data.isCheckpoint && s.writer.queue.any (·.checkpointOf r.pocket) then s
    else s.setWriter { s.writer with queue := r :: s.writer.queue }

/-- The unstarted LOSS entries are dropped and counted (R148). -/
def dropLosses (s : State) : State :=
  s.setCapture { s.capture with
    losses := []
    notWritten := min 255 (s.capture.notWritten + s.capture.losses.length) }

/-- The holdup test refuses a write: the capture stops (R148, R154). -/
def refuseWrite (s : State) : State :=
  let s := dropLosses (returnCarried s)
  if s.capture.restart then endRestart .stopped s
  else if s.capture.window then s.setCapture { s.capture with state := .stopped }
  else endCapture s

/-- The oldest CLOSE in the queue. -/
def Writer.oldestClose (w : Writer) : Option Request := w.queue.find? (·.data.isClose)

/-- A capture write remains (R147). -/
def State.captureWrites (s : State) : Bool :=
  s.writer.mapDue != .no || s.writer.carried.isSome || s.writer.oldestClose.isSome || !s.capture.losses.isEmpty

/-- Start a carried record's next attempt. -/
def startCarried (r : Request) (retry : Nat) (s : State) : State :=
  startAttempt r retry (s.setWriter { s.writer with carried := none })

/-- Start the capture's write of a CLOSE of the queue. The pocket's queued CHECKPOINT, which would wait behind the capture
(R151), leaves the queue with it, since no checkpoint is written after the CLOSE (R108; log entry 14). -/
def startClose (r : Request) (s : State) : State :=
  startAttempt r 0 (s.setWriter { s.writer with
    queue := (s.writer.queue.erase r).filter (!·.checkpointOf r.pocket) })

/-- Start the next capture write in the order of R147: the carried record's map write and its retry, the oldest CLOSE, the
first LOSS; a map write that no carried record brought is the last (R113, R140, R144; log entry 36). -/
def startCaptureWrite (s : State) : State :=
  if s.writer.mapDue ≠ .no ∧ s.writer.carried.isSome then startMapWrite s
  else
    match s.writer.carried, s.writer.oldestClose, s.capture.losses with
    | some (r, k), _, _ => startCarried r k s
    | none, some r, _ => startClose r s
    | none, none, e :: rest =>
      startAttempt ⟨e.pocket, .loss e.reason e.body⟩ 0 (s.setCapture { s.capture with losses := rest })
    | none, none, [] => startMapWrite s

/-- The capture's move while no operation is in flight: a scrub step stops, and the next write starts when the rail
stands above the write floor (R97, R140, R147, R148). -/
def captureNext (s : State) : State :=
  match s.writer.job with
  | some j => stopJob j s
  | none =>
    let s := s.setCapture { s.capture with state := .writing }
    if !s.captureWrites then captureIdle s else if s.rail then startCaptureWrite s else refuseWrite s

/-! ## The choice of the next operation (R106) -/

/-- The choice while the queue is empty: the owed demand scrubs of a stream before its next read, the link's read or
settings write, the other demand scrubs, and a patrol step (R106, R121, R137). -/
def chooseIdle (s : State) : Option State :=
  let w := s.writer
  match w.demands.find? (·.own), w.readAsked, w.settingsAsked, w.demands with
  | some d, _, _, _ => some (startDemand d s)
  | none, some i, _, _ => some (startReadout i s)
  | none, none, true, _ => some (s.setWriter { w with op := .settingsWrite false, settingsAsked := false })
  | none, none, false, d :: _ => some (startDemand d s)
  | none, none, false, [] =>
    if s.scrub.asked && s.mains.state == .present then some (startPatrol s) else none

/-- The writer's choice without a capture: the map write, the retry, the step in hand, the oldest entry of the queue, and
then what waits behind the queue; none when nothing waits (R106, R113). -/
def chooseNext (s : State) : Option State :=
  let w := s.writer
  if w.mapDue ≠ .no then some (startMapWrite s)
  else
    match w.carried, w.job, w.queue with
    | some (r, k), _, _ => some (startCarried r k s)
    | none, some j, _ => some (continueJob j s)
    | none, none, r :: rest => some (startAttempt r 0 (s.setWriter { w with queue := rest }))
    | none, none, [] => chooseIdle s

/-- A capture waits for its next write: it has begun and not stood, or a CLOSE has joined the queue while it stands. -/
def Capture.writesNow (c : Capture) (w : Writer) : Bool :=
  match c.state with
  | .finishing | .writing => true
  | .standing => !c.ended && (w.oldestClose.isSome || !c.losses.isEmpty)
  | _ => false

/-- One move of the writer while no operation is in flight, none when it has nothing to do. -/
def serveOnce (s : State) : Option State :=
  if s.scanning then scanNext s
  else if s.capture.writesNow s.writer then some (captureNext s)
  else if s.capturing then none
  else chooseNext s

/-- The writer goes on until an operation is in flight or nothing is left to do, at most `fuel` moves. -/
def serveFor : Nat → State → State
  | 0, s => s
  | fuel + 1, s =>
    match s.writer.op with
    | .idle =>
      match serveOnce s with
      | some next => serveFor fuel next
      | none => s
    | _ => s

/-- The writer serves what waits for it (R106). One event ends at most one operation and queues a handful of entries, so
the moves are few and the fuel does not run out. -/
def serve (s : State) : State := if s.on then serveFor (64 + s.writer.queue.length) s else s

end Sys2Proof.Machine
end

