-- ==== Sys2Proof/Machine/Mains.lean ====
section
/-! DEFINITION. The Mains Monitor: classification, the mains states and what each announcement brings to the other blocks
(R79 to R88). -/

namespace Sys2Proof.Machine

/-! ## Classification (R79) -/

/-- The nominal half-period in microseconds (R79; log entry 10). -/
def Settings.halfUs (g : Settings) : Nat := if g.mainsHz = 60 then 8333 else 10000

/-- The class of a half-cycle. -/
inductive HalfCycle where
  | good
  | low
  | bad
deriving DecidableEq, Repr

/-- The time lies from 85 % to 115 % of a half-period. -/
def inWindow (half elapsed : Nat) : Bool := decide (85 * half ≤ 100 * elapsed) && decide (100 * elapsed ≤ 115 * half)

/-- The class of the half-cycle that an edge ends: the first edge after a start is judged by its crest alone, and a late
edge of an interval already counted missing is never GOOD (R79). A crest below LOSS_PCT is LOW also when SAG_PCT is set at or
below LOSS_PCT and the crest lies between the two (log entry 50). -/
def State.classify (s : State) (elapsed crest : Nat) : HalfCycle :=
  if crest < s.settings.lossPct then .low
  else if !s.mains.hasRef then .good
  else if s.mains.counted = 0 ∧ inWindow s.mains.halfUs elapsed then .good
  else .bad

/-- The edge becomes the reference edge, and the next interval is timed with the present MAINS_HZ (R79, R80). -/
def takeReference (s : State) : State :=
  s.setMains { s.mains with hasRef := true, counted := 0, halfUs := s.settings.halfUs }

/-! ## Announcements (R86, R87) -/

/-- The mains leaves PRESENT: a waiting scrub request is withdrawn (R137). -/
def withdrawScrub (s : State) : State := s.setScrub { s.scrub with asked := false }

/-- The mains enters PRESENT: a scrub step that was due is asked for again (R137). -/
def renewScrub (s : State) : State :=
  if 2000 ≤ s.scrub.timer ∧ !s.scanning then s.setScrub { s.scrub with asked := true } else s

/-- Entry to PRESENT from SAG or QUALIFYING (R82, R85, R70, R87). The head of the arbiter queue is tested before an owed return is
announced, so before its guard tumble's MOTOR is queued (log entry 49). -/
def presentEntry (s : State) : State :=
  let s := s.setMains { s.mains with state := .present, lowRun := 0, recoveryRun := 0, qual := 0, sag := none }
  announceReturn (settleOutputs (renewScrub s))

/-- Entry to SAG (R81, R74). -/
def sagEntry (s : State) : State :=
  let s := s.setMains { s.mains with state := .sag, recoveryRun := 0, sag := some 0 }
  settleOutputs (revokeAllStages (withdrawScrub s))

/-- The paid clocks freeze (R9). -/
def freeze (s : State) : State := s.setFrozen true

/-- The paid clocks unfreeze, except under the restart note (R9). -/
def unfreeze (s : State) : State := if s.capture.restart then s else s.setFrozen false

/-- The actions of a FALTERING entry, before any output changes: the snapshots, the frozen clocks, the stall timers and
the capture; then the stages are revoked and the motors turn off (R27, R75, R90, R143). -/
def lossBegins (reason : LossReason) (origin : Origin) (s : State) : State :=
  let s := forPockets takeSnapshot (freeze s)
  let s := lossCapture reason (startActiveStalls origin s)
  settleOutputs (revokeAllStages s)

/-- The FALTERING entry (R81, R82). -/
def falteringEntry (s : State) : State :=
  let s := s.setMains { s.mains with
    state := .faltering
    priorSag := s.mains.state == .sag
    missing := 1
    sag := none }
  lossBegins .mains .provisional (withdrawScrub s)

/-- The guard tumbles end (R59). -/
def endGuards (s : State) : State :=
  forPockets (fun p => State.modOutput p fun o => { o with guard := none }) s

/-- The loss window closes, except under the restart note (R151, R152). -/
def windowEnds (s : State) : State := if s.capture.restart then s else closeWindow s

/-- The LOST entry (R83, R85, R29, R46, R76, R91, R152). -/
def lostEntry (s : State) : State :=
  let s := s.setMains { s.mains with
    state := .lost
    missing := 0
    qual := 0
    lowRun := 0
    recoveryRun := 0
    sag := none
    returnOwed := true }
  let s := forPockets toPending (firmStall s)
  windowEnds (clearLoads (unfreeze (endGuards s)))

/-- A sag-loss: a FALTERING entry and LOST within one event (R82, R86). -/
def sagLoss (s : State) : State :=
  let s := s.setMains { s.mains with state := .faltering, sag := none }
  lostEntry (lossBegins .sag .firm (withdrawScrub s))

/-- The tracker discards its snapshot and an active pocket asks for a RIDE_THROUGH checkpoint (R29). -/
def trackerRidesThrough (p : Pocket) (s : State) : State :=
  requestCheckpoint p .rideThrough (s.modTracker p fun t => { t with snapshot := none })

/-- The ride-through (R83, R29, R91, R151): the mains returns to its prior state, and the arbiter tests its head before an owed
return is announced (log entry 49). -/
def rideThrough (s : State) : State :=
  let s := s.setMains { s.mains with
    state := if s.mains.priorSag then .sag else .present
    missing := 0
    lowRun := 0
    recoveryRun := 0
    sag := if s.mains.priorSag then some 0 else none }
  let s := unfreeze (rideThroughStall s)
  let s := windowEnds (forPockets trackerRidesThrough s)
  let s := if s.mains.state = .present then renewScrub s else s
  announceReturn (settleOutputs s)

/-! ## The states (R81 to R85) -/

/-- A GOOD or BAD half-cycle in PRESENT (R81). -/
def presentEdge (crest : Nat) (s : State) : State :=
  if s.settings.sagPct ≤ crest then s.setMains { s.mains with lowRun := 0 }
  else
    let s := s.setMains { s.mains with lowRun := raise 4 s.mains.lowRun }
    if s.mains.lowRun = 4 then sagEntry s else s

/-- A GOOD or BAD half-cycle in SAG (R82). -/
def sagEdge (crest : Nat) (s : State) : State :=
  if crest < s.settings.sagPct + 5 then s.setMains { s.mains with recoveryRun := 0 }
  else
    let s := s.setMains { s.mains with recoveryRun := raise 4 s.mains.recoveryRun }
    if s.mains.recoveryRun = 4 then presentEntry s else s

/-- A GOOD or BAD half-cycle in QUALIFYING (R85). -/
def qualifyingEdge (good : Bool) (crest : Nat) (s : State) : State :=
  if good && decide (s.settings.returnPct ≤ crest) then
    let s := s.setMains { s.mains with qual := s.mains.qual + 1 }
    if s.settings.qualN ≤ s.mains.qual then presentEntry s else s
  else s.setMains { s.mains with qual := 0 }

/-- An edge in LOST is tested by its crest, whatever its time (R84). -/
def lostEdge (crest : Nat) (s : State) : State :=
  if s.settings.returnPct ≤ crest then s.setMains { s.mains with state := .qualifying, qual := 1 } else s

/-- A missing edge, counted by time or as a LOW half-cycle (R81 to R85). -/
def missing (s : State) : State :=
  match s.mains.state with
  | .present | .sag => falteringEntry s
  | .faltering =>
    let s := s.setMains { s.mains with missing := s.mains.missing + 1 }
    if s.settings.missN ≤ s.mains.missing then lostEntry s else s
  | .lost => s
  | .qualifying => lostEntry s

/-- A GOOD or BAD half-cycle (R81 to R83, R85). -/
def wholeHalfCycle (good : Bool) (crest : Nat) (s : State) : State :=
  match s.mains.state with
  | .present => presentEdge crest s
  | .sag => sagEdge crest s
  | .faltering => if good && decide (s.mains.missing < s.settings.missN) then rideThrough s else s
  | .lost => s
  | .qualifying => qualifyingEdge good crest s

/-- An edge (R79): it is classified and becomes the reference, and its class acts by the state. A LOW half-cycle of an
interval already counted missing adds none. -/
def mainsEdge (elapsed crest : Nat) (s : State) : State :=
  let kind := s.classify elapsed crest
  let counted := s.mains.counted
  let s := takeReference s
  if s.mains.state = .lost then lostEdge crest s
  else
    match kind with
    | .good => wholeHalfCycle true crest s
    | .bad => wholeHalfCycle false crest s
    | .low => if counted = 0 then missing s else s

/-- A missing edge counted by time (R79); in LOST it has no effect (R84). -/
def missingByTime (s : State) : State :=
  if s.mains.state = .lost then s else missing (s.setMains { s.mains with counted := s.mains.counted + 1 })

end Sys2Proof.Machine
end

