-- ==== Sys2Proof/Machine/Dispatching.lean ====
section
/-! DEFINITION. Admission and dispatch of a frame that passes the receive checks (R183, R184), and the checks that the
messages of a pocket share (R3, R167). -/

namespace Sys2Proof.Machine

/-- What a command answers: the part goes on. -/
abbrev Answer := Host.Outcome State Fault Refusal

/-- The state after an event of the main domain: what it does, then what the writer can start (R106). While the main
domain is stopped the event does not arise (log entry 3). -/
def onMain (f : State → State) (s : State) : Answer := .next (if s.on then serve (f s) else s)

/-- The OVERRUN counter goes up (R183). -/
def countOverrun (s : State) : State :=
  s.setLink { s.link with
    counters := { s.link.counters with overrun := raise 255 s.link.counters.overrun } }

/-- A valid frame arms and restarts the silence timer and clears SILENT (R61, R62). -/
def validFrame (s : State) : State := s.setSilence ⟨true, some (1000 * s.settings.silence), false⟩

/-- Admission and the first three tests of dispatch; `own` is what follows them (R183, R184). -/
def deliver (kind tag : Byte) (own : State → State) (s : State) : State :=
  if 2 ≤ s.link.waitingReplies then countOverrun s
  else
    let s := validFrame s
    if s.scanning && kind != 0x01 then refuse kind tag .busy s
    else if s.link.inFlight.isSome then refuse kind tag .busy s
    else own (endStream false s)

/-- The pocket of a message: an index other than 0 or 1 is refused with BAD_VALUE and index 0, and a pocket in OPENING,
ADOPTING or CLOSING refuses the message with BUSY (R3, R57, R167). -/
def withPocket (kind tag : Byte) (index : Nat) (own : Pocket → State → State) (s : State) : State :=
  match pocketOf index with
  | none => badValue kind tag 0 s
  | some p => if (s.tracker p).state.busy then refuse kind tag .busy s else own p s

end Sys2Proof.Machine
end

