-- ==== Sys2Proof/Machine/CycleMessages.lean ====
section
/-! DEFINITION. The cycle messages: OPEN_CYCLE, PAY, TELEMETRY, HEAT, the four actions of PHASE, and CLEAR_LIMIT (R4 to
R19, R57). Each has its owner's part and the command that brings it. -/

namespace Sys2Proof.Machine

/-! ## OPEN_CYCLE (R5, R6) -/

/-- The pocket enters OPENING with the programme of the request, its tumble clamped to the period (R5, R6). -/
def acceptOpen (tag : Byte) (g : Programme) (p : Pocket) (s : State) : State :=
  let s := (enterState p .opening s).modTracker p fun t => { t with programme := some g, doorNote := false }
  enqueue ⟨p, .openCycle g false⟩ (holdReply 0x02 tag (.opened p) s)

/-- The checks of R6, in their order, and the acceptance. -/
def openPocket (tag : Byte) (setpoint maxStages loadClass coolLen period tumble limit paid : Nat) (p : Pocket)
    (s : State) : State :=
  if (s.tracker p).state = .pending then refuse 0x02 tag .planPending s
  else if (s.tracker p).state ≠ .free then refuse 0x02 tag .wrongState s
  else if s.lossInProgress then refuse 0x02 tag .busy s
  else if (s.line p).doorOpen then refuse 0x02 tag .interlock s
  else if s.writer.worn then refuse 0x02 tag .journalWorn s
  else
    match programmeFault setpoint maxStages loadClass coolLen period tumble limit paid, loadClassOf loadClass with
    | some i, _ => badValue 0x02 tag i s
    | none, some c => acceptOpen tag ⟨setpoint, maxStages, c, coolLen, period, min tumble period, limit, paid⟩ p s
    | none, none => badValue 0x02 tag 3 s

/-- The owner's part of OPEN_CYCLE. -/
def openMessage (tag : Byte) (pocket setpoint maxStages loadClass coolLen period tumble limit paid : Nat) :
    State → State :=
  withPocket 0x02 tag pocket (openPocket tag setpoint maxStages loadClass coolLen period tumble limit paid)

/-- OPEN_CYCLE. -/
def execOpenCycle (tag : Byte) (pocket setpoint maxStages loadClass coolLen period tumble limit paid : Nat)
    (s : State) : Answer :=
  onMain (deliver 0x02 tag (openMessage tag pocket setpoint maxStages loadClass coolLen period tumble limit paid)) s

/-! ## PAY (R11, R12) -/

/-- The state that a PAY leaves a live pocket in: COOL with the new P above the cool length returns to HEAT, and the
return phase of PAUSED becomes HEAT alike (R11). -/
def paidState (coolLen paid : Nat) : PocketState → PocketState
  | .cool => if coolLen < paid then .heat else .cool
  | .paused .cool => if coolLen < paid then .paused .heat else .paused .cool
  | st => st

/-- An accepted PAY of a live pocket (R11). -/
def payLive (tag : Byte) (amount : Nat) (p : Pocket) (s : State) : State :=
  let t := s.tracker p
  let paid := min Config.paidMax (t.paid + amount)
  let added := paid - t.paid
  let s :=
    if added = 0 then s
    else
      let next := paidState t.coolLen paid t.state
      let s := s.modTracker p fun t => { t with paid := paid }
      requestCheckpoint p .pay (if next = t.state then s else settleOutputs (enterState p next s))
  reply 0x03 tag .ok (le16 added ++ le16 paid) s

/-- An accepted PAY of a PENDING pocket (R12). -/
def payPending (tag : Byte) (amount : Nat) (p : Pocket) (c : Context) (s : State) : State :=
  let paid := min Config.paidMax (c.paid + amount)
  let added := paid - c.paid
  let d : Context := { c with paid := paid }
  let s :=
    if added = 0 then s
    else enqueue ⟨p, .checkpoint .pay d.progress⟩ (s.modTracker p fun t => { t with context := some d })
  reply 0x03 tag .ok (le16 added ++ le16 paid) s

/-- The checks of R11 and the acceptance by state. -/
def payPocket (tag : Byte) (amount : Nat) (p : Pocket) (s : State) : State :=
  if ¬ (1 ≤ amount ∧ amount ≤ 3600) then badValue 0x03 tag 1 s
  else if s.capturing then refuse 0x03 tag .busy s
  else
    match (s.tracker p).state, (s.tracker p).context with
    | .heat, _ | .cool, _ | .paused _, _ => payLive tag amount p s
    | .pending, some c => payPending tag amount p c s
    | _, _ => refuse 0x03 tag .wrongState s

/-- The owner's part of PAY. -/
def payMessage (tag : Byte) (pocket amount : Nat) : State → State := withPocket 0x03 tag pocket (payPocket tag amount)

/-- PAY. -/
def execPay (tag : Byte) (pocket amount : Nat) (s : State) : Answer :=
  onMain (deliver 0x03 tag (payMessage tag pocket amount)) s

/-! ## TELEMETRY (R13) -/

/-- The clamped values are stored and the age restarts (R13). -/
def storeTelemetry (tag : Byte) (exhaust : Nat) (inlet : Int) (p : Pocket) (s : State) : State :=
  let x := min 150 exhaust
  let i := clampInlet inlet
  let s := s.modTracker p fun t => { t with exhaust := some x, inlet := i, age := 0 }
  reply 0x04 tag .ok [byte (bit (x != exhaust) + 2 * bit (i != inlet))] s

/-- The owner's part of TELEMETRY. -/
def telemetryMessage (tag : Byte) (pocket exhaust : Nat) (inlet : Int) : State → State :=
  withPocket 0x04 tag pocket (storeTelemetry tag exhaust inlet)

/-- TELEMETRY. -/
def execTelemetry (tag : Byte) (pocket exhaust : Nat) (inlet : Int) (s : State) : Answer :=
  onMain (deliver 0x04 tag (telemetryMessage tag pocket exhaust inlet)) s

/-! ## HEAT (R15) -/

/-- The maximum stages of the pocket's programme, 0 when it holds none. -/
def Tracker.maxStages (t : Tracker) : Nat :=
  match t.programme with
  | some g => g.maxStages
  | none => 0

/-- The checks of R15, and the clamped level is stored. -/
def heatPocket (tag : Byte) (level : Nat) (p : Pocket) (s : State) : State :=
  if 2 < level then badValue 0x05 tag 1 s
  else if (s.tracker p).state ≠ .heat then refuse 0x05 tag .wrongState s
  else
    let stored := min level (s.tracker p).maxStages
    let s := settleOutputs (s.modTracker p fun t => { t with level := stored })
    reply 0x05 tag .ok [byte stored, byte (bit (stored != level))] s

/-- The owner's part of HEAT. -/
def heatMessage (tag : Byte) (pocket level : Nat) : State → State := withPocket 0x05 tag pocket (heatPocket tag level)

/-- HEAT. -/
def execHeat (tag : Byte) (pocket level : Nat) (s : State) : Answer :=
  onMain (deliver 0x05 tag (heatMessage tag pocket level)) s

/-! ## PHASE (R17 to R19) -/

/-- END_HEAT (R17). -/
def endHeatPocket (tag : Byte) (p : Pocket) (s : State) : State :=
  if (s.tracker p).state ≠ .heat then refuse 0x06 tag .wrongState s
  else
    let t := s.tracker p
    let paid := min t.paid t.coolLen
    let s := enterState p .cool (s.modTracker p fun t => { t with paid := paid })
    reply 0x06 tag .ok (le16 (t.paid - paid)) (requestCheckpoint p .phase (settleOutputs s))

/-- The owner's part of END_HEAT. -/
def endHeatMessage (tag : Byte) (pocket : Nat) : State → State := withPocket 0x06 tag pocket (endHeatPocket tag)

/-- PHASE with END_HEAT. -/
def execEndHeat (tag : Byte) (pocket : Nat) (s : State) : Answer :=
  onMain (deliver 0x06 tag (endHeatMessage tag pocket)) s

/-- The pocket pauses, with its PAUSE checkpoint (R18, R20). -/
def pauseFrom (r : RunPhase) (p : Pocket) (s : State) : State :=
  requestCheckpoint p .pause (settleOutputs (enterPaused p r s))

/-- PAUSE (R18). -/
def pausePocket (tag : Byte) (p : Pocket) (s : State) : State :=
  match (s.tracker p).state with
  | .heat => reply 0x06 tag .ok [] (pauseFrom .heat p s)
  | .cool => reply 0x06 tag .ok [] (pauseFrom .cool p s)
  | _ => refuse 0x06 tag .wrongState s

/-- The owner's part of PAUSE. -/
def pauseMessage (tag : Byte) (pocket : Nat) : State → State := withPocket 0x06 tag pocket (pausePocket tag)

/-- PHASE with PAUSE. -/
def execPause (tag : Byte) (pocket : Nat) (s : State) : Answer := onMain (deliver 0x06 tag (pauseMessage tag pocket)) s

/-- RESUME (R18). -/
def resumePocket (tag : Byte) (p : Pocket) (s : State) : State :=
  match (s.tracker p).state with
  | .paused r =>
    if (s.line p).doorOpen then refuse 0x06 tag .interlock s
    else reply 0x06 tag .ok [] (requestCheckpoint p .pause (settleOutputs (enterState p r.state s)))
  | _ => refuse 0x06 tag .wrongState s

/-- The owner's part of RESUME. -/
def resumeMessage (tag : Byte) (pocket : Nat) : State → State := withPocket 0x06 tag pocket (resumePocket tag)

/-- PHASE with RESUME. -/
def execResume (tag : Byte) (pocket : Nat) (s : State) : Answer :=
  onMain (deliver 0x06 tag (resumeMessage tag pocket)) s

/-- STOP (R19). -/
def stopPocket (tag : Byte) (p : Pocket) (s : State) : State :=
  if (s.tracker p).state.active then
    let s := enterClosing p .stop (s.tracker p).paid (s.schedule p).elapsed s
    settleOutputs (holdReply 0x06 tag (.stopped p) s)
  else refuse 0x06 tag .wrongState s

/-- The owner's part of STOP. -/
def stopMessage (tag : Byte) (pocket : Nat) : State → State := withPocket 0x06 tag pocket (stopPocket tag)

/-- PHASE with STOP. A capture may start to write its CLOSE, so the rail is read (R97). -/
def execStop (tag : Byte) (pocket : Nat) (s : State) : Answer :=
  onMain (fun s => deliver 0x06 tag (stopMessage tag pocket) (senseRail s)) s

/-- PHASE by its action code; a code above 3 is refused (R17). -/
def phaseMessage (tag : Byte) (pocket action : Nat) : State → State :=
  match action with
  | 0 => endHeatMessage tag pocket
  | 1 => pauseMessage tag pocket
  | 2 => resumeMessage tag pocket
  | 3 => stopMessage tag pocket
  | _ => withPocket 0x06 tag pocket fun _ => badValue 0x06 tag 1

/-! ## CLEAR_LIMIT (R57) -/

/-- The checks of R57, and the latch is cleared. -/
def clearLimitPocket (tag : Byte) (p : Pocket) (s : State) : State :=
  if !(s.tracker p).state.paying then refuse 0x07 tag .wrongState s
  else if (s.line p).limTripped then refuse 0x07 tag .interlock s
  else
    let had := (s.output p).latch
    let s := settleOutputs (s.modOutput p fun o => { o with latch := false })
    reply 0x07 tag .ok [byte (bit had), byte (s.tracker p).trips] s

/-- The owner's part of CLEAR_LIMIT. -/
def clearLimitMessage (tag : Byte) (pocket : Nat) : State → State := withPocket 0x07 tag pocket (clearLimitPocket tag)

/-- CLEAR_LIMIT. -/
def execClearLimit (tag : Byte) (pocket : Nat) (s : State) : Answer :=
  onMain (deliver 0x07 tag (clearLimitMessage tag pocket)) s

end Sys2Proof.Machine
end

