-- ==== Sys2Proof/Machine/MainsEvents.lean ====
section
/-! DEFINITION. The events of the mains: an edge, a missing edge and the sag timer's expiry (R79, R82, R86). Each carries
whether the holdup rail stands above the write floor (R97, log entry 6). -/

namespace Sys2Proof.Machine

/-- MAINS_EDGE. -/
def execMainsEdge (elapsedUs crest : Nat) (rail : Bool) : State → Answer :=
  onMain fun s => mainsEdge elapsedUs crest (s.setRail rail)

/-- MISSING_EDGE. -/
def execMissingEdge (rail : Bool) : State → Answer := onMain fun s => missingByTime (s.setRail rail)

/-- SAG_LOSS: the sag timer has expired with the mains still SAG. -/
def execSagLoss (rail : Bool) : State → Answer :=
  onMain fun s => if s.mains.state = .sag then sagLoss (s.setRail rail) else s

end Sys2Proof.Machine
end

