-- ==== Sys2Proof/Machine/Pins.lean ====
section
/-! DEFINITION. The sensing inputs of the pockets and the timers of the Output Stage Unit, the trackers and the arbiter (R9,
R20, R21, R25, R33, R45, R52 to R59, R62, R68). An event whose condition is absent changes nothing (log entry 3). -/

namespace Sys2Proof.Machine

/-! ## The clocks of the trackers -/

/-- PAID_SECOND (R9, R10). -/
def execPaidSecond (p : Pocket) : State → Answer :=
  onMain fun s => if s.paidCounts p && decide (0 < (s.tracker p).paid) then paidSecond p s else s

/-- ANTICREASE_SECOND (R33). -/
def execAnticreaseSecond (p : Pocket) : State → Answer :=
  onMain fun s => if s.elapsedCounts p then anticreaseSecond p s else s

/-- PERIODIC_CHECKPOINT (R25). -/
def execPeriodicCheckpoint (p : Pocket) : State → Answer :=
  onMain fun s => if s.periodicCounts p then requestCheckpoint p .periodic s else s

/-! ## DOOR_x (R20, R45, R48) -/

/-- The tracker acts on the opening of its door, after the outputs have turned off (R20). -/
def trackerDoorOpens (p : Pocket) (s : State) : State :=
  match (s.tracker p).state with
  | .opening => s.modTracker p fun t => { t with doorNote := true }
  | .heat => requestCheckpoint p .pause (enterPaused p .heat s)
  | .cool => requestCheckpoint p .pause (enterPaused p .cool s)
  | .anticrease => enterClosing p .door 0 (s.schedule p).elapsed s
  | .pending => s.modOutput p fun o => { o with guard := none }
  | .held _ => s.modTracker p fun t => { t with held := none }
  | _ => s

/-- The door opens while the main domain runs. -/
def doorOpens (p : Pocket) (s : State) : State := settleOutputs (trackerDoorOpens p (settleOutputs s))

/-- The filtered level of DOOR_x. -/
def setDoor (p : Pocket) (opened : Bool) (s : State) : State := s.modLine p fun l => { l with doorOpen := opened }

/-- DOOR_OPEN. A capture may start to write the CLOSE that it brings, so the rail is read (R97). -/
def execDoorOpen (p : Pocket) (s : State) : Answer :=
  if (s.line p).doorOpen then .next s else onMain (fun s => doorOpens p (senseRail s)) (setDoor p true s)

/-- DOOR_CLOSE: a motor want that is still raised is requested again (R48). -/
def execDoorClose (p : Pocket) (s : State) : Answer :=
  if !(s.line p).doorOpen then .next s else onMain settleOutputs (setDoor p false s)

/-! ## LIM_x (R21, R55) -/

/-- The tracker counts a trip in HEAT, COOL and PAUSED, and the second holds the pocket (R21). -/
def trackerTrips (p : Pocket) (s : State) : State :=
  if (s.tracker p).state.paying then
    let s := s.modTracker p fun t => { t with trips := raise 2 t.trips }
    let s := if (s.tracker p).trips = 2 then settleOutputs (enterHeld p .limit true s) else s
    requestCheckpoint p .limit s
  else s

/-- A trip with the latch clear sets it and is reported; one with the latch set is not (R55). -/
def limitTrips (p : Pocket) (s : State) : State :=
  if (s.output p).latch then s
  else trackerTrips p (settleOutputs (s.modOutput p fun o => { o with latch := true }))

/-- The filtered level of LIM_x. -/
def setLimit (p : Pocket) (tripped : Bool) (s : State) : State := s.modLine p fun l => { l with limTripped := tripped }

/-- LIMIT_TRIP. -/
def execLimitTrip (p : Pocket) (s : State) : Answer :=
  if (s.line p).limTripped then .next s else onMain (limitTrips p) (setLimit p true s)

/-- LIMIT_INTACT: the latch is not changed (R45). -/
def execLimitIntact (p : Pocket) (s : State) : Answer := .next (setLimit p false s)

/-! ## AIR_x (R52 to R54) -/

/-- A break of AIR_x in PROVING or PROVEN (R52). -/
def airBreaks (p : Pocket) (s : State) : State :=
  match (s.output p).airflow with
  | .proving | .proven =>
    settleOutputs (s.modOutput p fun o => { o with airflow := s.brokenAirflow p, proving := 0, airTimer := 0 })
  | _ => s

/-- A make of AIR_x in UNMADE or TIMING (R52). -/
def airMakes (p : Pocket) (s : State) : State :=
  match (s.output p).airflow with
  | .unmade | .timing => s.modOutput p fun o => { o with airflow := .proving, proving := 0, airTimer := 0 }
  | _ => s

/-- The filtered level of AIR_x. -/
def setAir (p : Pocket) (made : Bool) (s : State) : State := s.modLine p fun l => { l with airMade := made }

/-- AIRFLOW_BREAK. -/
def execAirflowBreak (p : Pocket) (s : State) : Answer :=
  if !(s.line p).airMade then .next s else onMain (airBreaks p) (setAir p false s)

/-- AIRFLOW_MAKE. -/
def execAirflowMake (p : Pocket) (s : State) : Answer :=
  if (s.line p).airMade then .next s else onMain (airMakes p) (setAir p true s)

/-- The proving count reaches 3 s (R52). -/
def airProves (p : Pocket) (s : State) : State :=
  if (s.output p).airflow = .proving then
    settleOutputs (s.modOutput p fun o => { o with airflow := .proven, proving := 3000 })
  else s

/-- AIRFLOW_PROVEN. -/
def execAirflowProven (p : Pocket) : State → Answer := onMain (airProves p)

/-- The airflow timer reaches 30 s (R21, R54): the timer is cleared and a pocket in HEAT is held. -/
def airFaults (p : Pocket) (s : State) : State :=
  if (s.output p).airflow = .timing then
    let s := s.modOutput p fun o => { o with airTimer := 0 }
    if (s.tracker p).state = .heat then
      requestCheckpoint p .phase (settleOutputs (enterHeld p .airflow true s))
    else s
  else s

/-- AIRFLOW_FAULT. -/
def execAirflowFault (p : Pocket) : State → Answer := onMain (airFaults p)

/-! ## Cooling and guard tumbles (R58, R59) -/

/-- The cooling tumble's time is up (R58). -/
def heldTumbleEnds (p : Pocket) (s : State) : State :=
  settleOutputs (s.modTracker p fun t => { t with held := none })

/-- HELD_TUMBLE_END. -/
def execHeldTumbleEnd (p : Pocket) : State → Answer := onMain (heldTumbleEnds p)

/-- The guard tumble's time is up (R59). -/
def guardTumbleEnds (p : Pocket) (s : State) : State :=
  settleOutputs (s.modOutput p fun o => { o with guard := none })

/-- GUARD_TUMBLE_END. -/
def execGuardTumbleEnd (p : Pocket) : State → Answer := onMain (guardTumbleEnds p)

/-! ## Silence and stagger (R62, R68) -/

/-- The silence timer expires: SILENT is set and every heat level becomes 0 (R16, R62). -/
def silenceExpires (s : State) : State :=
  if s.silence.left.isSome then
    let s := s.setSilence { s.silence with left := none, silent := true }
    settleOutputs (forPockets (fun p => State.modTracker p fun t => { t with level := 0 }) s)
  else s

/-- SILENCE_EXPIRY. -/
def execSilenceExpiry : State → Answer := onMain silenceExpires

/-- The stagger timer becomes ELAPSED and the head is tested (R68, R70). -/
def staggerElapses (s : State) : State := settleOutputs (s.setArbiter { s.arbiter with stagger := none })

/-- STAGGER_ELAPSED. -/
def execStaggerElapsed : State → Answer := onMain staggerElapses

end Sys2Proof.Machine
end

