-- ==== Sys2Proof/Machine/PlanMessages.lean ====
section
/-! DEFINITION. The plan messages: PLAN_QUERY, PLAN_ADOPT and PLAN_DISCARD (R166 to R168, R173). -/

namespace Sys2Proof.Machine

/-- A plan message acts on a PENDING pocket and its context; any other state refuses it (R167). -/
def withContext (kind tag : Byte) (own : Pocket → Context → State → State) (p : Pocket) (s : State) : State :=
  match (s.tracker p).state, (s.tracker p).context with
  | .pending, some c => own p c s
  | _, _ => refuse kind tag .wrongState s

/-! ## PLAN_QUERY -/

/-- The plan is computed and reported (R167). -/
def queryPlan (tag : Byte) (p : Pocket) (c : Context) (s : State) : State :=
  reply 0x08 tag .ok (planFields (s.planNow p c)) s

/-- The owner's part of PLAN_QUERY. -/
def planQueryMessage (tag : Byte) (pocket : Nat) : State → State :=
  withPocket 0x08 tag pocket (withContext 0x08 tag (queryPlan tag))

/-- PLAN_QUERY. -/
def execPlanQuery (tag : Byte) (pocket : Nat) (s : State) : Answer :=
  onMain (deliver 0x08 tag (planQueryMessage tag pocket)) s

/-! ## PLAN_ADOPT -/

/-- The ADOPT request of a plan (R102). -/
def State.adoptRequest (s : State) (p : Pocket) (c : Context) : Request :=
  ⟨p, .adopt (s.planNow p c) c.exhaust c.inlet c.trips (s.output p).latch⟩

/-- The adoption: it is refused while a loss is in progress, and otherwise its figures are fixed and the pocket enters
ADOPTING (R168). -/
def adoptPlan (tag : Byte) (p : Pocket) (c : Context) (s : State) : State :=
  if s.lossInProgress then refuse 0x09 tag .busy s
  else
    let r := s.adoptRequest p c
    settleOutputs (enqueue r (holdReply 0x09 tag (.adopted p) (enterState p .adopting s)))

/-- The owner's part of PLAN_ADOPT. -/
def planAdoptMessage (tag : Byte) (pocket : Nat) : State → State :=
  withPocket 0x09 tag pocket (withContext 0x09 tag (adoptPlan tag))

/-- PLAN_ADOPT. -/
def execPlanAdopt (tag : Byte) (pocket : Nat) (s : State) : Answer :=
  onMain (deliver 0x09 tag (planAdoptMessage tag pocket)) s

/-! ## PLAN_DISCARD -/

/-- The discard: the pocket enters CLOSING with the context's values, which its tracker shows from then on (R173; log
entry 19). -/
def discardPlan (tag : Byte) (p : Pocket) (c : Context) (s : State) : State :=
  let s := s.modTracker p fun t => { t with paid := c.paid }
  let s := s.modSchedule p fun a => { a with elapsed := c.elapsed }
  settleOutputs (holdReply 0x0A tag (.discarded p) (enterClosing p .discard c.paid c.elapsed s))

/-- The owner's part of PLAN_DISCARD. -/
def planDiscardMessage (tag : Byte) (pocket : Nat) : State → State :=
  withPocket 0x0A tag pocket (withContext 0x0A tag (discardPlan tag))

/-- PLAN_DISCARD. A capture may start to write its CLOSE, so the rail is read (R97). -/
def execPlanDiscard (tag : Byte) (pocket : Nat) (s : State) : Answer :=
  onMain (fun s => deliver 0x0A tag (planDiscardMessage tag pocket) (senseRail s)) s

end Sys2Proof.Machine
end

