-- ==== Sys2Proof/Machine/ServiceMessages.lean ====
section
/-! DEFINITION. STATUS, JOURNAL_READ, the settings messages and RESTART (R119, R153, R190, R197, R198). -/

namespace Sys2Proof.Machine

/-! ## STATUS (R190) -/

/-- The report is built, and the link error counters and the start causes it reported are cleared. -/
def statusMessage (tag : Byte) (silent : Bool) (s : State) : State :=
  let s := reply 0x01 tag .ok (s.statusFields silent) s
  (s.setLink { s.link with counters := ⟨0, 0, 0, 0, 0, 0⟩ }).setAlwaysOn
    { s.alwaysOn with causes := ⟨false, false, false, false⟩ }

/-- STATUS. SILENT is reported as it stood before the frame (R62). -/
def execStatus (tag : Byte) (s : State) : Answer := onMain (deliver 0x01 tag (statusMessage tag s.silence.silent)) s

/-! ## JOURNAL_READ (R119, R188) -/

/-- The checks of R119 (log entry 30), and the stream begins with its first read asked for. -/
def journalMessage (tag : Byte) (first count : Nat) (s : State) : State :=
  if Config.slotCount ≤ first then badValue 0x0B tag 0 s
  else if count = 0 ∨ Config.slotCount < count ∨ Config.slotCount < first + count then badValue 0x0B tag 1 s
  else if s.capturing then refuse 0x0B tag .busy s
  else
    (s.setLink { s.link with stream := some ⟨tag, first, count, count⟩ }).setWriter
      { s.writer with readAsked := some first }

/-- JOURNAL_READ. -/
def execJournalRead (tag : Byte) (first count : Nat) (s : State) : Answer :=
  onMain (deliver 0x0B tag (journalMessage tag first count)) s

/-! ## Settings (R197, R198) -/

/-- The working table is reported (R197). -/
def settingsReadMessage (tag : Byte) (s : State) : State := reply 0x0C tag .ok (s.settings.wire.flatMap le16) s

/-- SETTINGS_READ. -/
def execSettingsRead (tag : Byte) (s : State) : Answer := onMain (deliver 0x0C tag (settingsReadMessage tag)) s

/-- Every pocket is FREE. -/
def State.allFree (s : State) : Bool := (s.tracker .a).state == .free && (s.tracker .b).state == .free

/-- The valid prefix is applied, the reply is held and the writer is asked for a settings write (R198). -/
def applySettings (tag : Byte) (g : Settings) (applied : Nat) (bad : Option Nat) (s : State) : State :=
  let s := holdReply 0x0D tag (.settings applied bad) (s.setSettings g)
  s.setWriter { s.writer with settingsAsked := true }

/-- The checks of R198, in their order; a payload without one to eighteen pairs is refused by its length (R189). -/
def settingsWriteMessage (tag : Byte) (pairs : List (Nat × Nat)) (s : State) : State :=
  if !settingsLengthOk (3 * pairs.length) then refuse 0x0D tag .badLength s
  else if !s.allFree then refuse 0x0D tag .wrongState s
  else if !s.writer.queue.isEmpty || s.capturing then refuse 0x0D tag .busy s
  else
    match trySettings s.settings 0 pairs with
    | (_, 0, _) => badValue 0x0D tag 0 s
    | (g, n + 1, bad) => applySettings tag g (n + 1) bad s

/-- SETTINGS_WRITE. -/
def execSettingsWrite (tag : Byte) (pairs : List (Nat × Nat)) (s : State) : Answer :=
  onMain (deliver 0x0D tag (settingsWriteMessage tag pairs)) s

/-! ## RESTART (R153) -/

/-- The pocket takes its snapshot at the acceptance of a RESTART: it is active and has none. -/
def State.freshAtRestart (s : State) (p : Pocket) : Bool :=
  (s.tracker p).state.active && (s.tracker p).snapshot.isNone

/-- The acceptance: the clocks freeze, the snapshots are taken, the stall timers start, and a capture begins or is
joined. -/
def restartMessage (tag : Byte) (s : State) : State :=
  let fresh := s.freshAtRestart
  let s := freeze (holdReply 0x0E tag .restart s)
  let s := forPockets restartSnapshot s
  let s := firmStall (startActiveStalls .firm s)
  if s.capturing then joinCapture fresh s else beginCapture .restart s

/-- RESTART. Its capture may start to write, so the rail is read (R97). -/
def execRestart (tag : Byte) (s : State) : Answer :=
  onMain (fun s => deliver 0x0E tag (restartMessage tag) (senseRail s)) s

end Sys2Proof.Machine
end

