-- ==== Sys2Proof/Machine/Receiver.lean ====
section
/-! DEFINITION. The receiving side of the Serial Link Unit: the break, the bytes of a frame, the receive errors, and the
hand-over of a complete frame (R177 to R184). The running check is made byte by byte (R180). -/

namespace Sys2Proof.Machine

/-! ## Receive errors (R181, R182) -/

/-- The five receive errors. -/
inductive ReceiveError where
  | framing
  | check
  | gap
  | length
  | lead
deriving DecidableEq, Repr

/-- The counter of an error goes up. -/
def Counters.count (c : Counters) : ReceiveError → Counters
  | .framing => { c with framing := raise 255 c.framing }
  | .check => { c with check := raise 255 c.check }
  | .gap => { c with gap := raise 255 c.gap }
  | .length => { c with length := raise 255 c.length }
  | .lead => { c with lead := raise 255 c.lead }

/-- The link with an empty frame buffer, in a receiver state. -/
def Link.await (r : Receiver) (k : Link) : Link := { k with receiver := r, buffer := [], check := 0xFFFF }

/-- A receive error: its counter goes up, the buffer is emptied and the receiver enters HUNT. -/
def receiveError (e : ReceiveError) (s : State) : State :=
  s.setLink ({ s.link with counters := s.link.counters.count e }.await .hunt)

/-- A frame is being received. -/
def Receiver.inFrame : Receiver → Bool
  | .lead | .header | .body => true
  | _ => false

/-! ## A complete frame (R179, R184) -/

/-- The owner's part of a message. -/
def ownMessage (tag : Byte) (silent : Bool) : Message → State → State
  | .status => statusMessage tag silent
  | .openCycle p sp ms lc c pd tu lim paid => openMessage tag p sp ms lc c pd tu lim paid
  | .pay p n => payMessage tag p n
  | .telemetry p e i => telemetryMessage tag p e i
  | .heat p l => heatMessage tag p l
  | .phase p a => phaseMessage tag p a
  | .clearLimit p => clearLimitMessage tag p
  | .planQuery p => planQueryMessage tag p
  | .planAdopt p => planAdoptMessage tag p
  | .planDiscard p => planDiscardMessage tag p
  | .journalRead f c => journalMessage tag f c
  | .settingsRead => settingsReadMessage tag
  | .settingsWrite pairs => settingsWriteMessage tag pairs
  | .restart => restartMessage tag

/-- The last three tests of dispatch (R184). -/
def ownContent (kind tag : Byte) (silent : Bool) : Content → State → State
  | .unknownKind => refuse kind tag .unknownKind
  | .badLength => refuse kind tag .badLength
  | .message m => ownMessage tag silent m

/-- A frame that passed the receive checks. -/
def frameArrives (kind tag : Byte) (payload : List Byte) (s : State) : State :=
  deliver kind tag (ownContent kind tag s.silence.silent (contentOf kind payload)) s

/-! ## Bytes (R179) -/

/-- A byte of the frame joins the buffer; the bytes before CHECK enter the running check (R180). -/
def Link.store (covered : Bool) (b : Byte) (k : Link) : Link :=
  { k with buffer := k.buffer ++ [b], check := if covered then checkByte k.check b else k.check }

/-- A byte of the header: LEN is tested against 56. -/
def headerByte (b : Byte) (s : State) : State :=
  let k := s.link.store true b
  if k.buffer.length < 3 then s.setLink k
  else if maxLen < b.toNat then receiveError .length s
  else s.setLink { k with receiver := .body }

/-- A byte of the body: a payload byte, the low byte of CHECK, or its high byte, which completes the frame. -/
def bodyByte (b : Byte) (s : State) : State :=
  let stored := s.link.buffer.length
  let len := u8 s.link.buffer 2
  if stored < 3 + len then s.setLink (s.link.store true b)
  else if stored = 3 + len then s.setLink (s.link.store false b)
  else
    let buffer := s.link.buffer
    if s.link.check.toNat = u8 buffer (3 + len) + 256 * b.toNat then
      frameArrives (buffer.getD 0 0) (buffer.getD 1 0) ((buffer.drop 3).take len) (s.setLink (s.link.await .hunt))
    else receiveError .check s

/-- A byte arrives on RXD. -/
def feedByte (s : State) (b : Byte) : State :=
  match s.link.receiver with
  | .hunt | .breaking => s
  | .lead => if b = leadByte then s.setLink (s.link.await .header) else receiveError .lead s
  | .header => headerByte b s
  | .body => bodyByte b s

/-- FRAME_RECEIVED: the bytes that have arrived, the last of them the frame's last CHECK byte (log entry 22). The frame's
message may start a capture write, so the rail is read (R97). -/
def execFrameReceived (bytes : List Byte) : State → Answer := onMain fun s => bytes.foldl feedByte (senseRail s)

/-! ## Breaks and the gap limit (R177, R181) -/

/-- A break: a frame that it cuts short is a GAP error, and a new frame is opened. -/
def breakBegins (s : State) : State :=
  let cut := s.link.receiver = .header ∨ s.link.receiver = .body
  let s := if cut then receiveError .gap s else s
  s.setLink (s.link.await .breaking)

/-- BREAK_DETECTED, with the bytes that arrived before it, which may end a frame. -/
def execBreakDetected (arrived : List Byte) : State → Answer :=
  onMain fun s => breakBegins (arrived.foldl feedByte (senseRail s))

/-- The line returns high after a break. -/
def breakEnds (s : State) : State :=
  if s.link.receiver = .breaking then s.setLink (s.link.await .lead) else s

/-- BREAK_END. -/
def execBreakEnd : State → Answer := onMain breakEnds

/-- An error found in a frame; between frames there is none to find. -/
def errorInFrame (e : ReceiveError) (s : State) : State :=
  if s.link.receiver.inFrame then receiveError e s else s

/-- GAP_TIMEOUT. -/
def execGapTimeout : State → Answer := onMain (errorInFrame .gap)

/-- The receive error of an error found at a byte. -/
def ReceiveError.ofByte : ByteError → ReceiveError
  | .lead => .lead
  | .length => .length
  | .framing => .framing

/-- RECEIVE_ERROR_FOUND. -/
def execReceiveErrorFound (e : ByteError) : State → Answer := onMain (errorInFrame (.ofByte e))

end Sys2Proof.Machine
end

