-- ==== Sys2Proof/Machine/Supply.lean ====
section
/-! DEFINITION. The supplies, the start kinds and the always-on domain, with the end of a frame on TXD, which may end a
RESTART (R89, R95, R96, R150, R154, R155, R183, R188, R200, R201). -/

namespace Sys2Proof.Machine

/-! ## Stopping and starting the main domain -/

/-- Every block of the main domain in its starting state (R201). The blocks stand so too while the domain is stopped (log
entry 25). The array, the always-on domain, the inputs, the supplies and the model's own fields are kept. -/
def clearMain (s : State) : State :=
  { State.reset with
    pending := s.pending
    supply := s.supply
    lines := s.lines
    rail := s.rail
    railAsks := s.railAsks
    alwaysOn := s.alwaysOn
    array := s.array
    writer := Writer.start }

/-- What a write in flight leaves when the main domain stops during it (R150, R155, R199). A torn map write always leaves
the map area failing its check (R150). -/
def tearWrite (torn : Left) (s : State) : State :=
  match s.writer.op with
  | .record t => s.setSlot t.slot ((s.slot t.slot).torn t.bytes torn)
  | .erase i _ => s.setSlot i ((s.slot i).torn erasedBytes torn)
  | .copy c => s.setSlot c.target ((s.slot c.target).torn c.bytes torn)
  | .mapWrite _ => s.setArray { s.array with map := { s.array.map with integrity := .unreadable } }
  | .settingsWrite _ => s.setArray { s.array with settings := s.array.settings.torn s.settings.wire torn }
  | _ => s

/-- The causes of a main-domain start (R200). -/
inductive StartCause where
  | supply
  | pin
  | restart
deriving DecidableEq, Repr

/-- The start-cause bit of a start is set beside those already set: COLD when the marker is invalid, and otherwise the
bit of its cause (R200). The marker decides as it stands at the start, also when it has turned valid again after a floor
loss of R95 (log entry 51). -/
def Causes.record (marker : Bool) (cause : StartCause) (c : Causes) : Causes :=
  if !marker then { c with cold := true }
  else
    match cause with
    | .supply => { c with ret := true }
    | .pin => { c with pin := true }
    | .restart => { c with restart := true }

/-- The always-on domain at a start: every PROVISIONAL timer becomes FIRM, and a COLD start finds the timers stopped at 0
and the flags clear (R91, R200, R201). -/
def AlwaysOn.atStart (cause : StartCause) (o : AlwaysOn) : AlwaysOn :=
  { o with
    timers :=
      if o.marker then ⟨o.timers.a.makeFirm, o.timers.b.makeFirm⟩ else ⟨StallTimer.cold, StallTimer.cold⟩
    active := if o.marker then o.active else ⟨false, false⟩
    causes := o.causes.record o.marker cause }

/-- The first level of LIM_x is taken, inside the start event: one that reads tripped sets the latch (R45; log entry 40). -/
def firstLimit (p : Pocket) (s : State) : State :=
  s.modOutput p fun o => { o with latch := (s.line p).limTripped }

/-- A main-domain start (R200, R201): the settings load is the writer's first operation (R196). -/
def startMain (cause : StartCause) (s : State) : State :=
  let s := clearMain s
  let s := s.setAlwaysOn (s.alwaysOn.atStart cause)
  (forPockets firstLimit s).setWriter { Writer.start with op := .settingsLoad }

/-! ## The supplies -/

/-- HOLDUP_COLLAPSE (R150): the main domain stops and a write in flight is torn. -/
def execHoldupCollapse (torn : Left) (s : State) : Answer :=
  .next (if s.supply.powered then
      (clearMain (tearWrite torn s)).setSupply { s.supply with powered := false } |>.setRail false
    else s)

/-- MAIN_SUPPLY_POWER_UP (R200): the main domain starts, unless RESET_N holds it in reset (R155). -/
def execMainSupplyPowerUp (s : State) : Answer :=
  .next (if s.supply.powered then s
    else
      let s := (s.setSupply { s.supply with powered := true }).setRail true
      if s.supply.resetHeld then s else startMain .supply s)

/-- RESET_N_ASSERT (R90, R155): the timers of the flagged pockets start FIRM, and the main domain is reset at once. -/
def execResetNAssert (torn : Left) (s : State) : Answer :=
  .next (if s.supply.resetHeld then s
    else
      let s := forPockets (fun p s => if s.alwaysOn.active.get p then startStall p .firm s else s) s
      (clearMain (tearWrite torn s)).setSupply { s.supply with resetHeld := true })

/-- RESET_N_RELEASE (R155, R200): a powered main domain starts. -/
def execResetNRelease (s : State) : Answer :=
  .next (if !s.supply.resetHeld then s
    else
      let s := s.setSupply { s.supply with resetHeld := false }
      if s.supply.powered then startMain .pin s else s)

/-! ## The reserve (R95, R96) -/

/-- RESERVE_READY: the marker becomes valid. -/
def execReserveReady (s : State) : Answer :=
  .next (if s.alwaysOn.reserve = .belowReady then
      s.setAlwaysOn { s.alwaysOn with reserve := .ready, marker := true }
    else s)

/-- RESERVE_LOW. -/
def execReserveLow (s : State) : Answer :=
  .next (if s.alwaysOn.reserve = .ready then s.setAlwaysOn { s.alwaysOn with reserve := .belowReady } else s)

/-- The always-on domain after it has lost its state. -/
def AlwaysOn.lost : AlwaysOn where
  timers := ⟨StallTimer.cold, StallTimer.cold⟩
  active := ⟨false, false⟩
  causes := ⟨false, false, false, false⟩
  marker := false
  reserve := .belowFloor

/-- RESERVE_FLOOR_LOSS. -/
def execReserveFloorLoss (s : State) : Answer := .next (s.setAlwaysOn AlwaysOn.lost)

/-- A tracker rewrites its pocket's active flag, and the timer of a PENDING or ADOPTING pocket starts saturated. -/
def rewriteFlag (p : Pocket) (s : State) : State :=
  let s := s.setActive p (s.tracker p).state.flagged
  if (s.tracker p).state.planPending then startSaturated p s else s

/-- RESERVE_FLOOR_RESTORED. -/
def execReserveFloorRestored (s : State) : Answer :=
  .next (if s.alwaysOn.reserve = .belowFloor then
      let s := s.setAlwaysOn { s.alwaysOn with reserve := .belowReady }
      if s.on then forPockets rewriteFlag s else s
    else s)

/-! ## The stall oscillator (R89) -/

/-- STALL_TICK: a whole period of the oscillator passes. In it each running timer comes to the end of one period measured
from its own start, and stands at the same place of its next (R89; log entry 11). -/
def execStallTick (s : State) : Answer := .next (forPockets (fun p => State.modStall p (·.advance)) s)

/-! ## The end of a frame on TXD (R154, R183, R188) -/

/-- The demand scrub of a sent frame is owed; it is the stream's own while the stream goes on (R121). -/
def oweDemand (d : Option Demand) (own : Bool) (s : State) : State :=
  match d with
  | some d => s.setWriter { s.writer with demands := s.writer.demands ++ [{ d with own := own }] }
  | none => s

/-- A frame of a running stream has been sent: the next read is asked for, or the stream is complete (R188). -/
def streamSent (d : Option Demand) (s : State) : State :=
  match s.link.stream with
  | none => oweDemand d false s
  | some t =>
    if t.left ≤ 1 then oweDemand d false (s.setLink { s.link with stream := none })
    else
      let s := s.setLink { s.link with stream := some { t with cursor := t.cursor + 1, left := t.left - 1 } }
      oweDemand d true (s.setWriter { s.writer with readAsked := some (t.cursor + 1) })

/-- The oldest waiting frame is sent next (R183). -/
def Link.sendNext (k : Link) : Link :=
  match k.waiting with
  | [] => { k with sending := none }
  | f :: rest => { k with sending := some f, waiting := rest }

/-- The frame on TXD has left: the RESTART reply brings the reset (R154), and a stream frame the next read. -/
def frameSent (s : State) : State :=
  match s.link.sending with
  | none => s
  | some f =>
    if f.restart then startMain .restart s
    else
      let s := s.setLink s.link.sendNext
      if f.stream then streamSent f.demand s else oweDemand f.demand false s

/-- FRAME_SENT. -/
def execFrameSent : State → Answer := onMain frameSent

end Sys2Proof.Machine
end

