-- ==== Sys2Proof/Machine/WriterEvents.lean ====
section
/-! DEFINITION. The ends of the Journal Writer's operations, the settings load, and the scrub step that comes due (R110,
R113, R120, R123 to R127, R137, R138, R196, R199). Each acts when its operation is the one in flight. -/

namespace Sys2Proof.Machine

/-! ## The settings load and the scan's reads -/

/-- The working table that the read of the area gives, none when the defaults are kept (R196). -/
def loadedSettings (a : Area (List Nat)) : Option Settings :=
  match a.integrity with
  | .unreadable => none
  | _ =>
    let g := settingsOf a.content
    if g.consistent then some g else none

/-- The settings load ends, and the scan begins in phase MAP (R125, R196). -/
def settingsLoaded (decay : Decay (List Nat)) (s : State) : State :=
  let area := s.array.settings.age decay
  let s := s.setArray { s.array with settings := area }
  let s := match loadedSettings area with
    | some g => (s.setSettings g).setDefaulted false
    | none => s.setDefaulted true
  (s.setScan { Scan.start with phase := .map }).setWriter { s.writer with op := .scanMapRead }

/-- SETTINGS_LOAD_DONE. -/
def execSettingsLoadDone (decay : Decay (List Nat)) : State → Answer :=
  onMain fun s => if s.writer.op = .settingsLoad then settingsLoaded decay s else s

/-- SCAN_MAP_READ_DONE. -/
def execScanMapReadDone (decay : Decay (List Nat)) : State → Answer :=
  onMain fun s => if s.writer.op = .scanMapRead then scanMapRead decay s else s

/-- SCAN_SLOT_READ_DONE. -/
def execScanSlotReadDone (decay : Decay (List Byte)) : State → Answer :=
  onMain fun s =>
    match s.writer.op with
    | .scanRead k => scanSlotRead k decay s
    | _ => s

/-! ## Writes -/

/-- RECORD_ATTEMPT_DONE. -/
def execRecordAttemptDone (back : ReadBack) (rail : Bool) : State → Answer :=
  onMain fun s =>
    match s.writer.op with
    | .record t => attemptDone t back (s.setRail rail)
    | _ => s

/-- MAP_WRITE_DONE. -/
def execMapWriteDone (back : ReadBack) (rail : Bool) : State → Answer :=
  onMain fun s =>
    match s.writer.op with
    | .mapWrite second => mapDone second back (s.setRail rail)
    | _ => s

/-- ERASE_TEST_DONE. -/
def execEraseTestDone (back : ReadBack) (rail : Bool) : State → Answer :=
  onMain fun s =>
    match s.writer.op with
    | .erase i f => noteErased i (eraseDone i f back (s.setRail rail))
    | _ => s

/-- RELOCATION_COPY_DONE. -/
def execRelocationCopyDone (back : ReadBack) (rail : Bool) : State → Answer :=
  onMain fun s =>
    match s.writer.op with
    | .copy c => copyDone c back (s.setRail rail)
    | _ => s

/-- The SETTINGS_WRITE reply is released at the end of the write (R199). -/
def releaseSettings (stored : Bool) (s : State) : State :=
  match s.link.inFlight with
  | some ⟨_, _, .settings n none⟩ => release (.settings n none) .ok [byte n, byte (bit stored)] s
  | some ⟨_, _, .settings n (some i)⟩ => release (.settings n (some i)) .badValue [byte i] s
  | _ => s

/-- The read-back of a settings write ends: a first mismatch is followed by a second write (R114, R199). -/
def settingsWritten (second : Bool) (back : ReadBack) (s : State) : State :=
  let s := s.setArray { s.array with settings := s.array.settings.written s.settings.wire back }
  if back = .matched ∨ second then
    let s := (s.setWriter { s.writer with op := .idle }).setDefaulted (back != .matched)
    releaseSettings (back == .matched) s
  else s.setWriter { s.writer with op := .settingsWrite true }

/-- SETTINGS_WRITE_DONE. -/
def execSettingsWriteDone (back : ReadBack) (rail : Bool) : State → Answer :=
  onMain fun s =>
    match s.writer.op with
    | .settingsWrite second => settingsWritten second back (s.setRail rail)
    | _ => s

/-! ## Read-out and scrub -/

/-- READOUT_READ_DONE. -/
def execReadoutReadDone (decay : Decay (List Byte)) (rail : Bool) : State → Answer :=
  onMain fun s =>
    match s.writer.op with
    | .readoutRead i live => readoutDone i live decay (s.setRail rail)
    | _ => s

/-- The step timer reaches 2 s, and a step is asked for (R137). -/
def scrubDue (s : State) : State :=
  if s.mains.state = .present ∧ !s.scanning then s.setScrub { s.scrub with timer := 2000, asked := true } else s

/-- SCRUB_STEP_DUE. -/
def execScrubStepDue : State → Answer := onMain scrubDue

/-- SCRUB_READ_DONE. -/
def execScrubReadDone (decay : Decay (List Byte)) (rail : Bool) : State → Answer :=
  onMain fun s =>
    match s.writer.op with
    | .scrubRead i => scrubRead i decay (s.setRail rail)
    | _ => s

end Sys2Proof.Machine
end

