-- ==== Sys2Proof/Machine/Dispatch.lean ====
section
/-! DEFINITION. One arm per command, each a direct call of its meaning. -/

namespace Sys2Proof.Machine

/-- The effect of a command on everything but the queue. -/
def exec (i : Instr) (s : State) : Host.Outcome State Fault Refusal :=
  match i with
  | .status tag => Sys2Proof.Machine.execStatus tag s
  | .openCycle tag pocket setpoint maxStages loadClass coolLen period tumble limit paid => Sys2Proof.Machine.execOpenCycle tag pocket setpoint maxStages loadClass coolLen period tumble limit paid s
  | .pay tag pocket amount => Sys2Proof.Machine.execPay tag pocket amount s
  | .telemetry tag pocket exhaust inlet => Sys2Proof.Machine.execTelemetry tag pocket exhaust inlet s
  | .heat tag pocket level => Sys2Proof.Machine.execHeat tag pocket level s
  | .endHeat tag pocket => Sys2Proof.Machine.execEndHeat tag pocket s
  | .pause tag pocket => Sys2Proof.Machine.execPause tag pocket s
  | .resume tag pocket => Sys2Proof.Machine.execResume tag pocket s
  | .stop tag pocket => Sys2Proof.Machine.execStop tag pocket s
  | .clearLimit tag pocket => Sys2Proof.Machine.execClearLimit tag pocket s
  | .planQuery tag pocket => Sys2Proof.Machine.execPlanQuery tag pocket s
  | .planAdopt tag pocket => Sys2Proof.Machine.execPlanAdopt tag pocket s
  | .planDiscard tag pocket => Sys2Proof.Machine.execPlanDiscard tag pocket s
  | .journalRead tag first count => Sys2Proof.Machine.execJournalRead tag first count s
  | .settingsRead tag => Sys2Proof.Machine.execSettingsRead tag s
  | .settingsWrite tag pairs => Sys2Proof.Machine.execSettingsWrite tag pairs s
  | .restart tag => Sys2Proof.Machine.execRestart tag s
  | .breakDetected arrived => Sys2Proof.Machine.execBreakDetected arrived s
  | .gapTimeout => Sys2Proof.Machine.execGapTimeout s
  | .frameReceived bytes => Sys2Proof.Machine.execFrameReceived bytes s
  | .frameSent => Sys2Proof.Machine.execFrameSent s
  | .paidSecond p => Sys2Proof.Machine.execPaidSecond p s
  | .anticreaseSecond p => Sys2Proof.Machine.execAnticreaseSecond p s
  | .periodicCheckpoint p => Sys2Proof.Machine.execPeriodicCheckpoint p s
  | .doorOpen p => Sys2Proof.Machine.execDoorOpen p s
  | .doorClose p => Sys2Proof.Machine.execDoorClose p s
  | .limitTrip p => Sys2Proof.Machine.execLimitTrip p s
  | .limitIntact p => Sys2Proof.Machine.execLimitIntact p s
  | .airflowBreak p => Sys2Proof.Machine.execAirflowBreak p s
  | .airflowMake p => Sys2Proof.Machine.execAirflowMake p s
  | .airflowProven p => Sys2Proof.Machine.execAirflowProven p s
  | .airflowFault p => Sys2Proof.Machine.execAirflowFault p s
  | .heldTumbleEnd p => Sys2Proof.Machine.execHeldTumbleEnd p s
  | .guardTumbleEnd p => Sys2Proof.Machine.execGuardTumbleEnd p s
  | .silenceExpiry => Sys2Proof.Machine.execSilenceExpiry s
  | .staggerElapsed => Sys2Proof.Machine.execStaggerElapsed s
  | .mainsEdge elapsedUs crest rail => Sys2Proof.Machine.execMainsEdge elapsedUs crest rail s
  | .missingEdge rail => Sys2Proof.Machine.execMissingEdge rail s
  | .sagLoss rail => Sys2Proof.Machine.execSagLoss rail s
  | .stallTick => Sys2Proof.Machine.execStallTick s
  | .reserveReady => Sys2Proof.Machine.execReserveReady s
  | .reserveLow => Sys2Proof.Machine.execReserveLow s
  | .reserveFloorLoss => Sys2Proof.Machine.execReserveFloorLoss s
  | .reserveFloorRestored => Sys2Proof.Machine.execReserveFloorRestored s
  | .holdupCollapse torn => Sys2Proof.Machine.execHoldupCollapse torn s
  | .mainSupplyPowerUp => Sys2Proof.Machine.execMainSupplyPowerUp s
  | .resetNAssert torn => Sys2Proof.Machine.execResetNAssert torn s
  | .resetNRelease => Sys2Proof.Machine.execResetNRelease s
  | .settingsLoadDone decay => Sys2Proof.Machine.execSettingsLoadDone decay s
  | .scanMapReadDone decay => Sys2Proof.Machine.execScanMapReadDone decay s
  | .scanSlotReadDone decay => Sys2Proof.Machine.execScanSlotReadDone decay s
  | .recordAttemptDone back rail => Sys2Proof.Machine.execRecordAttemptDone back rail s
  | .mapWriteDone back rail => Sys2Proof.Machine.execMapWriteDone back rail s
  | .eraseTestDone back rail => Sys2Proof.Machine.execEraseTestDone back rail s
  | .relocationCopyDone back rail => Sys2Proof.Machine.execRelocationCopyDone back rail s
  | .settingsWriteDone back rail => Sys2Proof.Machine.execSettingsWriteDone back rail s
  | .readoutReadDone decay rail => Sys2Proof.Machine.execReadoutReadDone decay rail s
  | .scrubStepDue => Sys2Proof.Machine.execScrubStepDue s
  | .scrubReadDone decay rail => Sys2Proof.Machine.execScrubReadDone decay rail s
  | .breakEnd => Sys2Proof.Machine.execBreakEnd s
  | .receiveErrorFound error => Sys2Proof.Machine.execReceiveErrorFound error s

end Sys2Proof.Machine
end

