-- ==== Sys2Proof/Machine/Tick.lean ====
section
/-! DEFINITION. The passing of time: what one millisecond does while no command waits. First every counter and timer that
runs advances by it, and then each that has reached its limit does what the command of that limit does, so that one which is
started at the end of the millisecond has seen none of it (log entry 2). -/

namespace Sys2Proof.Machine

/-- The highest telemetry age in milliseconds (R14). -/
def ageMax : Nat := 65535000

/-! ## The millisecond passes -/

/-- A tracker's counters after a millisecond: the telemetry age, the paid accumulator and the periodic count while they
run, and the time since the entry to HELD (R9, R14, R25, R58). -/
def Tracker.passed (pays ages : Bool) (t : Tracker) : Tracker :=
  { t with
    age := raise ageMax t.age
    paidAcc := if pays then t.paidAcc + 1 else t.paidAcc
    periodic := if ages then t.periodic + 1 else t.periodic
    held := t.held.map (· + 1) }

/-- An anti-crease accumulator after a millisecond (R33). -/
def Schedule.passed (counts : Bool) (c : Schedule) : Schedule := { c with acc := if counts then c.acc + 1 else c.acc }

/-- The proving count, the airflow timer and the guard-tumble timer after a millisecond (R52, R53, R59). -/
def Outputs.passed (o : Outputs) : Outputs :=
  { o with
    proving := if o.airflow = .proving then o.proving + 1 else o.proving
    airTimer := if o.airflow = .timing then o.airTimer + 1 else o.airTimer
    guard := o.guard.map (· + 1) }

/-- The paid accumulator of the pocket advances: P is left and the paid clock counts (R9). -/
def State.paysOut (s : State) (p : Pocket) : Bool := s.paidCounts p && decide (0 < (s.tracker p).paid)

/-- A pocket's counters and timers advance. -/
def pocketPasses (p : Pocket) (s : State) : State :=
  ((s.modTracker p (·.passed (s.paysOut p) (s.periodicCounts p))).modSchedule p (·.passed (s.elapsedCounts p))).modOutput p
    (·.passed)

/-- The step timer of the scrub runs (R137). -/
def State.scrubCounts (s : State) : Bool := s.mains.state == .present && !s.scanning && decide (s.scrub.timer < 2000)

/-- Every counter and timer of the main domain that runs advances by a millisecond: those of the pockets, the silence
timer (R61), the stagger timer (R68), the sag timer (R82) and the scrub step timer (R137). -/
def State.passed (s : State) : State :=
  let s := forPockets pocketPasses s
  let s := s.setSilence { s.silence with left := s.silence.left.map (· - 1) }
  let s := s.setArbiter { s.arbiter with stagger := s.arbiter.stagger.map (· + 1) }
  let s := s.setMains { s.mains with sag := s.mains.sag.map (· + 1) }
  s.setScrub { s.scrub with timer := if s.scrubCounts then s.scrub.timer + 1 else s.scrub.timer }

/-! ## The limits of a pocket -/

/-- The paid accumulator has completed a second (R9). -/
def paidLimit (p : Pocket) (s : State) : State :=
  if s.paysOut p && decide (1000 ≤ (s.tracker p).paidAcc) then paidSecond p s else s

/-- The elapsed accumulator has completed a second (R33). -/
def elapsedLimit (p : Pocket) (s : State) : State :=
  if s.elapsedCounts p && decide (1000 ≤ (s.schedule p).acc) then anticreaseSecond p s else s

/-- The periodic count has reached CKPT_INTERVAL (R25). -/
def periodicLimit (p : Pocket) (s : State) : State :=
  if s.periodicCounts p && decide (1000 * s.settings.ckptInterval ≤ (s.tracker p).periodic) then
    requestCheckpoint p .periodic s
  else s

/-- The proving count has reached 3 s, or the airflow timer 30 s (R52, R54). -/
def airLimit (p : Pocket) (s : State) : State :=
  match (s.output p).airflow with
  | .proving => if 3000 ≤ (s.output p).proving then airProves p s else s
  | .timing => if 30000 ≤ (s.output p).airTimer then airFaults p s else s
  | _ => s

/-- GUARD_LIMIT has passed since the entry to HELD (R58). -/
def heldLimit (p : Pocket) (s : State) : State :=
  match (s.tracker p).held with
  | some n => if 1000 * s.settings.guardLimit ≤ n then heldTumbleEnds p s else s
  | none => s

/-- The guard-tumble timer has reached GUARD_LIMIT (R59). -/
def guardLimit (p : Pocket) (s : State) : State :=
  match (s.output p).guard with
  | some n => if 1000 * s.settings.guardLimit ≤ n then guardTumbleEnds p s else s
  | none => s

/-- The limits of a pocket, in one fixed order (log entry 2). -/
def pocketLimits (p : Pocket) (s : State) : State :=
  guardLimit p (heldLimit p (airLimit p (periodicLimit p (elapsedLimit p (paidLimit p s)))))

/-! ## The limits of the part -/

/-- The silence timer has run out (R61, R62). -/
def silenceLimit (s : State) : State := if s.silence.left = some 0 then silenceExpires s else s

/-- The stagger timer has reached STAGGER (R68). -/
def staggerLimit (s : State) : State :=
  match s.arbiter.stagger with
  | some n => if 1000 * s.settings.stagger ≤ n then staggerElapses s else s
  | none => s

/-- The sag timer has reached SAG_LOSS_S (R82). -/
def sagLimit (s : State) : State :=
  match s.mains.sag with
  | some n => if 1000 * s.settings.sagLossS ≤ n then sagLoss s else s
  | none => s

/-- The scrub step timer has reached 2 s (R137). -/
def scrubLimit (s : State) : State := if 2000 ≤ s.scrub.timer then scrubDue s else s

/-- What the limits reached in a millisecond bring, pocket A before pocket B (log entry 2). -/
def limits (s : State) : State :=
  scrubLimit (sagLimit (staggerLimit (silenceLimit (forPockets pocketLimits s))))

/-! ## A millisecond -/

/-- A millisecond of a stall timer: its phase advances, and at the end of a period its count (R89). -/
def StallTimer.tick (t : StallTimer) : StallTimer :=
  if t.running then
    if Config.stallPeriodMs ≤ t.phase + 1 then { t.advance with phase := 0 } else { t with phase := t.phase + 1 }
  else t

/-- A millisecond of the always-on domain. -/
def tickAlwaysOn (s : State) : State := forPockets (fun p => State.modStall p (·.tick)) s

/-- What one millisecond does. A sag-loss in it may start a capture write, so the rail is read (R97). -/
def tick (s : State) : State :=
  let s := tickAlwaysOn s
  if s.on then serve (limits (senseRail s).passed) else s

end Sys2Proof.Machine
end

