-- ==== Sys2Proof/WellFormed.lean ====
section
/-! DEFINITION. Which commands can come from outside: every field within what its line, its input or its area carries. -/

namespace Sys2Proof

/-- A one-byte payload field. -/
abbrev isByte (n : Nat) : Bool := decide (n < 256)

/-- A two-byte payload field. -/
abbrev isWord (n : Nat) : Bool := decide (n < 65536)

/-- A slot's content, when a decay names one, is 26 record bytes (R98). -/
def Decay.wfSlot : Decay (List Byte) → Bool
  | .wide bytes _ => decide (bytes.length = 26)
  | _ => true

/-- Strictly rising slot numbers, each below 96. -/
def risingSlots : List Nat → Bool
  | [] => true
  | [n] => decide (n < Config.slotCount)
  | n :: m :: rest => decide (n < m) && risingSlots (m :: rest)

/-- The map's content, when a decay names one, is a set of slot numbers, listed in rising order (R98). -/
def Decay.wfMap : Decay (List Nat) → Bool
  | .wide marks _ => risingSlots marks
  | _ => true

/-- The settings area's content, when a decay names one, is 22 two-byte values (R196). -/
def Decay.wfSettings : Decay (List Nat) → Bool
  | .wide values _ => decide (values.length = 22) && values.all isWord
  | _ => true

/-- A command whose operands the line, the inputs or the areas can carry. -/
def Instr.wf : Instr → Bool
  | .status _ | .settingsRead _ | .restart _ => true
  | .openCycle _ p sp ms lc c pd tu lim paid =>
    isByte p && isByte sp && isByte ms && isByte lc && isWord c && isWord pd && isWord tu && isWord lim && isWord paid
  | .pay _ p n => isByte p && isWord n
  | .telemetry _ p e i => isByte p && isByte e && decide (-128 ≤ i) && decide (i ≤ 127)
  | .heat _ p l => isByte p && isByte l
  | .endHeat _ p | .pause _ p | .resume _ p | .stop _ p | .clearLimit _ p
  | .planQuery _ p | .planAdopt _ p | .planDiscard _ p => isByte p
  | .journalRead _ f c => isByte f && isByte c
  | .settingsWrite _ pairs =>
    decide (1 ≤ pairs.length) && decide (pairs.length ≤ 18) && pairs.all fun kv => isByte kv.1 && isWord kv.2
  | .breakDetected bytes | .frameReceived bytes => decide (bytes.length ≤ 62)
  | .mainsEdge _ crest _ => decide (crest ≤ 150)
  | .settingsLoadDone d => d.wfSettings
  | .scanMapReadDone d => d.wfMap
  | .scanSlotReadDone d | .readoutReadDone d _ | .scrubReadDone d _ => d.wfSlot
  | .gapTimeout | .frameSent | .silenceExpiry | .staggerElapsed | .stallTick | .breakEnd | .scrubStepDue
  | .receiveErrorFound _ | .paidSecond _ | .anticreaseSecond _ | .periodicCheckpoint _
  | .doorOpen _ | .doorClose _ | .limitTrip _ | .limitIntact _
  | .airflowBreak _ | .airflowMake _ | .airflowProven _ | .airflowFault _
  | .heldTumbleEnd _ | .guardTumbleEnd _
  | .missingEdge _ | .sagLoss _
  | .reserveReady | .reserveLow | .reserveFloorLoss | .reserveFloorRestored
  | .holdupCollapse _ | .mainSupplyPowerUp | .resetNAssert _ | .resetNRelease
  | .recordAttemptDone _ _ | .mapWriteDone _ _ | .eraseTestDone _ _ | .relocationCopyDone _ _
  | .settingsWriteDone _ _ => true

end Sys2Proof
end

