-- ==== Sys2Proof/Safety.lean ====
section
/-! DEFINITION. What the claims speak of: the parts of the state a command leaves alone, the conditions under which the link
takes a message and the journal can write, and what counts as a safe state of the loads. -/

namespace Sys2Proof.Machine

/-! ## Frames -/

/-- The fields of the state. -/
inductive Part where
  | pending | supply | lines | rail | railAsks | trackers | frozen | schedules | outputs | silence | arbiter
  | mains | alwaysOn | array | writer | capture | scan | scrub | link | settings | defaulted
deriving DecidableEq, Repr

/-- The two states agree on a field. -/
def Part.same (s t : State) : Part → Prop
  | .pending => t.pending = s.pending
  | .supply => t.supply = s.supply
  | .lines => t.lines = s.lines
  | .rail => t.rail = s.rail
  | .railAsks => t.railAsks = s.railAsks
  | .trackers => t.trackers = s.trackers
  | .frozen => t.frozen = s.frozen
  | .schedules => t.schedules = s.schedules
  | .outputs => t.outputs = s.outputs
  | .silence => t.silence = s.silence
  | .arbiter => t.arbiter = s.arbiter
  | .mains => t.mains = s.mains
  | .alwaysOn => t.alwaysOn = s.alwaysOn
  | .array => t.array = s.array
  | .writer => t.writer = s.writer
  | .capture => t.capture = s.capture
  | .scan => t.scan = s.scan
  | .scrub => t.scrub = s.scrub
  | .link => t.link = s.link
  | .settings => t.settings = s.settings
  | .defaulted => t.defaulted = s.defaulted

/-- Every field but the ones listed is unchanged. -/
def KeepsBut (changed : List Part) (s t : State) : Prop := ∀ p : Part, p ∉ changed → p.same s t

/-- The other pocket. -/
def otherPocket : Pocket → Pocket
  | .a => .b
  | .b => .a

/-- The frames of the transmit list, the one being sent first (R183). -/
def Link.frames (k : Link) : List TxFrame := k.sending.toList ++ k.waiting

/-! ## When the part takes a command -/

/-- The main domain runs and admission takes the next frame on (R183). -/
def State.admits (s : State) : Bool := s.on && decide (s.link.waitingReplies < 2)

/-- A message reaches its owner: it is admitted, the scan is done and nothing is in flight (R184). -/
def State.takesMessages (s : State) : Bool := s.admits && !s.scanning && s.link.inFlight.isNone

/-- The state in which a message's owner acts: the frame has restarted the silence timer (R61), and a read-out stream that
it finds running has ended (R122). -/
def State.heard (s : State) : State := endStream false (validFrame s)

/-- The KIND, the TAG and the pocket index of a message that names a pocket (R3, R57, R167). -/
def pocketFields : Instr → Option (Byte × Byte × Nat)
  | .openCycle tag p _ _ _ _ _ _ _ _ => some (0x02, tag, p)
  | .pay tag p _ => some (0x03, tag, p)
  | .telemetry tag p _ _ => some (0x04, tag, p)
  | .heat tag p _ => some (0x05, tag, p)
  | .endHeat tag p | .pause tag p | .resume tag p | .stop tag p => some (0x06, tag, p)
  | .clearLimit tag p => some (0x07, tag, p)
  | .planQuery tag p => some (0x08, tag, p)
  | .planAdopt tag p => some (0x09, tag, p)
  | .planDiscard tag p => some (0x0A, tag, p)
  | _ => none

/-- The KIND and the TAG of a message. -/
def messageFields : Instr → Option (Byte × Byte)
  | .status tag => some (0x01, tag)
  | .journalRead tag _ _ => some (0x0B, tag)
  | .settingsRead tag => some (0x0C, tag)
  | .settingsWrite tag _ => some (0x0D, tag)
  | .restart tag => some (0x0E, tag)
  | c => (pocketFields c).map fun f => (f.1, f.2.1)

/-- The command that a message with a TAG is. -/
def Message.command (tag : Byte) : Message → Instr
  | .status => .status tag
  | .openCycle p sp ms lc c pd tu lim paid => .openCycle tag p sp ms lc c pd tu lim paid
  | .pay p n => .pay tag p n
  | .telemetry p e i => .telemetry tag p e i
  | .heat p l => .heat tag p l
  | .phase p 0 => .endHeat tag p
  | .phase p 1 => .pause tag p
  | .phase p 2 => .resume tag p
  | .phase p _ => .stop tag p
  | .clearLimit p => .clearLimit tag p
  | .planQuery p => .planQuery tag p
  | .planAdopt p => .planAdopt tag p
  | .planDiscard p => .planDiscard tag p
  | .journalRead f c => .journalRead tag f c
  | .settingsRead => .settingsRead tag
  | .settingsWrite pairs => .settingsWrite tag pairs
  | .restart => .restart tag

/-- The payload fields fit their bytes, and the action of a PHASE is one of the four (R4, R17, R166, R198). -/
def Message.wf (m : Message) : Bool :=
  (m.command 0).wf && match m with | .phase _ action => decide (action < 4) | _ => true

/-- A record request can be written: a stamp is left and a slot is eligible (the cases of R116 that need no mismatch do
not hold). -/
def State.canWrite (s : State) : Bool := s.writer.counter.isSome && (s.writer.target none).isSome

/-- The commands at which a capture write can start and whose row does not carry the rail, so that they take its free value:
the three messages that close a pocket or begin a capture, the bytes of a frame, and a door (R97; log entry 6). -/
def sensesRail : Instr → Bool
  | .stop .. | .planDiscard .. | .restart _ | .frameReceived _ | .breakDetected _ | .doorOpen _ => true
  | _ => false

/-- The state as a command finds it: the rail has been read when the command asks for it. -/
def State.sensedBy (c : Instr) (s : State) : State := if sensesRail c then senseRail s else s

/-! ## Starts (R200, R201) -/

/-- The start-cause flags after a start of a cause, with the marker as given (R200). -/
def Causes.started (marker : Bool) (cause : StartCause) (c : Causes) : Causes where
  cold := c.cold || !marker
  ret := c.ret || (marker && cause == .supply)
  pin := c.pin || (marker && cause == .pin)
  restart := c.restart || (marker && cause == .restart)

/-- `t` is `s` after a main-domain start: every block of the main domain in its starting state with the settings load in
flight, the latch of a tripped LIM_x set, and the always-on domain as its kind of start leaves it. -/
def State.startedFrom (cause : StartCause) (s t : State) : Prop :=
  t.trackers = ⟨Tracker.start, Tracker.start⟩ ∧ t.frozen = false ∧ t.schedules = ⟨Schedule.start, Schedule.start⟩ ∧
  (∀ p : Pocket, t.output p = ⟨false, false, false, (s.line p).limTripped, .off, 0, 0, none⟩) ∧
  t.silence = ⟨false, none, false⟩ ∧ t.arbiter = ⟨[], [], none⟩ ∧ t.mains = Mains.start ∧
  t.writer = { Writer.start with op := .settingsLoad } ∧ t.capture = Capture.start ∧ t.scan = Scan.start ∧
  t.scrub = ⟨0, 0, false, none⟩ ∧ t.link = Link.start ∧ t.settings = Settings.default ∧ t.defaulted = false ∧
  t.alwaysOn.marker = s.alwaysOn.marker ∧ t.alwaysOn.reserve = s.alwaysOn.reserve ∧
  t.alwaysOn.causes = s.alwaysOn.causes.started s.alwaysOn.marker cause ∧
  (∀ p : Pocket, t.alwaysOn.active.get p = (s.alwaysOn.marker && s.alwaysOn.active.get p) ∧
    t.stall p = if s.alwaysOn.marker then { s.stall p with origin := .firm } else ⟨false, 0, .firm, 0⟩) ∧
  t.array = s.array ∧ t.lines = s.lines ∧ t.railAsks = s.railAsks ∧ t.pending = s.pending

/-! ## Safe loads (R50, R51, R65, R67) -/

/-- The output of a load. -/
def Outputs.item (o : Outputs) : Item → Bool
  | .motor => o.motor
  | .stage1 => o.stage1
  | .stage2 => o.stage2

/-- The load is off: its output is off, and it is neither queued nor granted. -/
def State.loadOff (s : State) (l : Load) : Prop :=
  (s.output l.pocket).item l.item = false ∧ l ∉ s.arbiter.queue ∧ l ∉ s.arbiter.granted

/-- Every load of the pocket is off. -/
def State.pocketOff (s : State) (p : Pocket) : Prop := ∀ i : Item, s.loadOff ⟨p, i⟩

/-- A stage output of the pocket is on only under its interlocks: HEAT, door closed, latch clear, motor on, airflow proven,
mains PRESENT (R51). -/
def State.interlocked (s : State) (p : Pocket) : Prop :=
  (s.output p).stage1 = true ∨ (s.output p).stage2 = true →
    (s.tracker p).state = .heat ∧ (s.line p).doorOpen = false ∧ (s.output p).latch = false
      ∧ (s.output p).motor = true ∧ (s.output p).airflow = .proven ∧ s.mains.state = .present

/-- Nothing is left for the OSU to turn off or to request (R48, R50). -/
def State.settled (s : State) : Prop := forPockets requests (forPockets lapses s) = s

/-- The granted loads fit the budget (R67). -/
def State.withinBudget (s : State) : Prop := loadOf s.settings s.arbiter.granted ≤ s.settings.budget

/-- The queue and the granted set hold each load at most once and none in both (R65). -/
def Arbiter.proper (a : Arbiter) : Prop := a.queue.Nodup ∧ a.granted.Nodup ∧ ∀ l ∈ a.queue, l ∉ a.granted

/-- No STAGE2 is queued ahead of its own STAGE1 (R65). -/
def Arbiter.ordered (a : Arbiter) : Prop :=
  ∀ (p : Pocket) (ahead behind : List Load), a.queue = ahead ++ ⟨p, .stage1⟩ :: behind → ⟨p, .stage2⟩ ∉ ahead

/-- The outputs and the arbiter agree: an output is on exactly while its load is granted, and the arbiter is proper (R49,
R65). -/
def State.loadsAgree (s : State) : Prop :=
  s.arbiter.proper ∧ ∀ l : Load, (s.output l.pocket).item l.item = true ↔ l ∈ s.arbiter.granted

/-- The loads of a state are guarded: outputs and arbiter agree, every stage keeps its interlocks, a motor is on only while it is
wanted, its door closed and the mains PRESENT or SAG, and nothing is granted while the main domain is stopped (R46, R48, R49,
R51). -/
def State.guarded (s : State) : Prop :=
  s.loadsAgree ∧
    (∀ p : Pocket, s.interlocked p ∧ ((s.output p).motor = true → s.motorAllowed p = true)) ∧
    (s.on = false → s.arbiter.granted = [])

/-- The granted loads fit the budget of a consistent table (R67, R195). -/
def State.budgeted (s : State) : Prop := s.withinBudget ∧ s.settings.consistent = true

/-! ## Safe records (R1, R106, R107) -/

/-- The OPEN of an OPEN_CYCLE, an ADOPT or a CLOSE: the records of which a pocket has at most one (R107). -/
def RecordData.exclusive (d : RecordData) : Bool := !d.isCheckpoint && !d.isLoss && !d.isReemit

/-- Every record request that waits or is being written: the record in flight, the carried one and the queue. -/
def Writer.requests (w : Writer) : List Request :=
  (match w.op with | .record t => [t.req] | _ => []) ++ (w.carried.map (·.1)).toList ++ w.queue

/-- The in-flight state of the pocket that an exclusive record belongs to (R107). -/
def RecordData.awaitedIn (d : RecordData) (st : PocketState) : Prop :=
  match d with
  | .openCycle _ _ => st = .opening
  | .adopt .. => st = .adopting
  | .close .. => ∃ r, st = .closing r
  | _ => True

/-- The record requests keep within their bound: one CHECKPOINT of a pocket in the queue and no LOSS, one OPEN, ADOPT or CLOSE
of a pocket in all, its pocket in the state that waits for it; and before the scan is done every pocket is FREE and no record is
asked for (R1, R106, R107). -/
def State.recordsFit (s : State) : Prop :=
  (∀ r ∈ s.writer.queue, r.data.isLoss = false) ∧
    (∀ p : Pocket,
      (s.writer.queue.filter (·.checkpointOf p)).length ≤ 1 ∧
      (s.writer.requests.filter fun r => r.pocket == p && r.data.exclusive).length ≤ 1 ∧
      (∀ r ∈ s.writer.requests, r.pocket = p → r.data.exclusive = true → r.data.awaitedIn (s.tracker p).state)) ∧
    (s.scanning = true → s.writer.requests = [] ∧ ∀ p : Pocket, (s.tracker p).state = .free) ∧
    (s.writer.op = .settingsLoad → s.scanning = true)

end Sys2Proof.Machine
end

