-- ==== Sys2Proof/Certificates/Slice0/Obligations.lean ====
section
/-! DEFINITION. The obligations: what the rules of the manual say a command, an operation or the whole part does.

A command's own effect is stated on the state `u` from which the Journal Writer then serves what waits for it (R106): the
command answers `.next (serve u)`. What serving leaves alone, and what it starts, are statements of their own. The commands at which
a capture write can start and whose row does not carry the rail read it first: `s.sensedBy c` is the state as they find it (log
entry 6). -/

open Sys2Proof Sys2Proof.Machine

/-! ## Cycle messages (R3 to R19, R57) -/

/-- R3 (and R57, R167 for the messages that name a pocket alike): a pocket index other than 0 or 1 is refused with BAD_VALUE
and field index 0, and a pocket in OPENING, ADOPTING or CLOSING with BUSY; nothing else of the message acts. -/
def Obligations.PocketMessagesRefusedByPocket : Prop :=
  ∀ (c : Instr) (k g : Byte) (i : Nat) (s : State), pocketFields c = some (k, g, i) → s.takesMessages = true →
    (2 ≤ i →
      exec c s = .next (serve ((s.sensedBy c).heard.setLink (s.heard.link.push (replyFrame k g .badValue [0]))))) ∧
    (∀ p : Pocket, i = pocketIndex p → (s.tracker p).state.busy = true →
      exec c s = .next (serve ((s.sensedBy c).heard.setLink (s.heard.link.push (replyFrame k g .busy [])))))

/-- R6: an OPEN_CYCLE that passes every check. The pocket enters OPENING with the programme, its tumble clamped to the period
(R5), the OPEN request joins the writer queue and the reply is held; the other pocket keeps its tracker. -/
def Obligations.OpenCycleAccepted : Prop :=
  ∀ (tag : Byte) (p : Pocket) (setpoint maxStages coolLen period tumble limit paid : Nat) (cls : LoadClass) (s : State),
    s.takesMessages = true → (s.tracker p).state = .free → s.lossInProgress = false → (s.line p).doorOpen = false →
    s.writer.worn = false → 40 ≤ setpoint ∧ setpoint ≤ 80 → 1 ≤ maxStages ∧ maxStages ≤ 2 → 60 ≤ coolLen ∧ coolLen ≤ 900 →
    60 ≤ period ∧ period ≤ 900 → tumble ≤ 900 → limit ≤ 7200 → 60 ≤ paid ∧ paid ≤ 21600 →
    ∃ u, exec (.openCycle tag (pocketIndex p) setpoint maxStages cls.code coolLen period tumble limit paid) s
        = .next (serve u) ∧
      (u.tracker p).state = .opening ∧
      (u.tracker p).programme = some ⟨setpoint, maxStages, cls, coolLen, period, min tumble period, limit, paid⟩ ∧
      (u.tracker p).doorNote = false ∧ (u.tracker p).level = 0 ∧ u.alwaysOn.active.get p = false ∧
      u.writer.queue = s.writer.queue ++
        [⟨p, .openCycle ⟨setpoint, maxStages, cls, coolLen, period, min tumble period, limit, paid⟩ false⟩] ∧
      u.link.inFlight = some ⟨0x02, tag, .opened p⟩ ∧
      u.tracker (otherPocket p) = s.tracker (otherPocket p) ∧
      KeepsBut [.silence, .trackers, .outputs, .alwaysOn, .writer, .link] s u

/-- R6, R5: the refusals of OPEN_CYCLE, each for a pocket that no earlier check refuses: PENDING, another state, a loss in
progress, the door, the WORN journal, and the first programme field out of its range, by its index. -/
def Obligations.OpenCycleRefused : Prop :=
  ∀ (tag : Byte) (p : Pocket) (setpoint maxStages loadClass coolLen period tumble limit paid : Nat) (s : State),
    s.takesMessages = true → (s.tracker p).state.busy = false →
    let answered (r : Result) (data : List Byte) : Prop :=
      exec (.openCycle tag (pocketIndex p) setpoint maxStages loadClass coolLen period tumble limit paid) s
        = .next (serve (s.heard.setLink (s.heard.link.push (replyFrame 0x02 tag r data))))
    ((s.tracker p).state = .pending → answered .planPending []) ∧
    ((s.tracker p).state ≠ .free ∧ (s.tracker p).state ≠ .pending → answered .wrongState []) ∧
    ((s.tracker p).state = .free ∧ s.lossInProgress = true → answered .busy []) ∧
    ((s.tracker p).state = .free ∧ s.lossInProgress = false ∧ (s.line p).doorOpen = true → answered .interlock []) ∧
    ((s.tracker p).state = .free ∧ s.lossInProgress = false ∧ (s.line p).doorOpen = false ∧ s.writer.worn = true →
      answered .journalWorn []) ∧
    (∀ j : Nat, (s.tracker p).state = .free ∧ s.lossInProgress = false ∧ (s.line p).doorOpen = false
        ∧ s.writer.worn = false →
      [within 40 80 setpoint, within 1 2 maxStages, within 0 2 loadClass, within 60 900 coolLen, within 60 900 period,
        within 0 900 tumble, within 0 7200 limit, within 60 21600 paid].findIdx? (! ·) = some j →
      answered .badValue [byte (j + 1)])

/-- R11: an accepted PAY of a pocket in HEAT, COOL or PAUSED adds to P up to 21600. When it added time it requests a PAY
checkpoint of the new state, and a COOL pocket whose P is now above the cool length returns to HEAT at level 0, as the return
phase of a PAUSED one does. -/
def Obligations.PayOfALivePocket : Prop :=
  ∀ (tag : Byte) (p : Pocket) (amount : Nat) (s : State),
    s.takesMessages = true → (s.tracker p).state.paying = true → 1 ≤ amount ∧ amount ≤ 3600 → s.capturing = false →
    s.discardsCheckpoint p .pay = false →
    let t := s.tracker p
    let new := min 21600 (t.paid + amount)
    let added := new - t.paid
    ∃ u, exec (.pay tag (pocketIndex p) amount) s = .next (serve u) ∧
      (u.tracker p).paid = t.paid + added ∧
      (u.tracker p).state = (if added ≠ 0 ∧ t.coolLen < new ∧ t.state = .cool then .heat
        else if added ≠ 0 ∧ t.coolLen < new ∧ t.state = .paused .cool then .paused .heat else t.state) ∧
      (u.tracker p).level = (if (u.tracker p).state = t.state then t.level else 0) ∧
      u.link = s.heard.link.push (replyFrame 0x03 tag .ok (le16 added ++ le16 new)) ∧
      (added = 0 → u.writer.queue = s.writer.queue) ∧
      (added ≠ 0 → ∃ phase, (u.tracker p).state.lossPhase = some phase ∧
        u.writer.queue = takeCheckpoint ⟨p, .checkpoint .pay (u.progress p phase)⟩ s.writer.queue) ∧
      u.tracker (otherPocket p) = s.tracker (otherPocket p) ∧
      KeepsBut [.silence, .trackers, .schedules, .outputs, .arbiter, .alwaysOn, .writer, .link] s u

/-- R12: an accepted PAY of a PENDING pocket adds to the paid value of its context up to 21600 and changes no more of it. When
it added time it requests a PAY checkpoint built from the context, with its outputs off and heat level 0. -/
def Obligations.PayOfAPendingPocket : Prop :=
  ∀ (tag : Byte) (p : Pocket) (amount : Nat) (c : Context) (s : State),
    s.takesMessages = true → (s.tracker p).state = .pending → (s.tracker p).context = some c →
    1 ≤ amount ∧ amount ≤ 3600 → s.capturing = false → s.discardsCheckpoint p .pay = false →
    let new := min 21600 (c.paid + amount)
    let added := new - c.paid
    ∃ u, exec (.pay tag (pocketIndex p) amount) s = .next (serve u) ∧
      (u.tracker p).state = .pending ∧ (u.tracker p).context = some { c with paid := c.paid + added } ∧
      u.link = s.heard.link.push (replyFrame 0x03 tag .ok (le16 added ++ le16 new)) ∧
      (added = 0 → u.writer.queue = s.writer.queue) ∧
      (added ≠ 0 → u.writer.queue = takeCheckpoint
        ⟨p, .checkpoint .pay
          ⟨c.phase, new, c.elapsed, c.exhaust.getD 0, c.inlet, c.exhaust.isNone, false, 0, false, c.trips, 0⟩⟩
        s.writer.queue) ∧
      u.tracker (otherPocket p) = s.tracker (otherPocket p) ∧
      KeepsBut [.silence, .trackers, .writer, .link] s u

/-- R11, R15, R17, R18, R19: what refuses PAY, HEAT and the PHASE actions for a pocket that is in no in-flight state. The
reply is the result alone, with the field index for BAD_VALUE, and nothing else changes. A PHASE frame whose action is above 3 is
refused with BAD_VALUE and index 1 (R17). -/
def Obligations.CycleMessagesRefused : Prop :=
  ∀ (tag : Byte) (p : Pocket) (n : Nat) (s : State), s.takesMessages = true → (s.tracker p).state.busy = false →
    let st := (s.tracker p).state
    let answered (c : Instr) (k : Byte) (r : Result) (data : List Byte) : Prop :=
      exec c s = .next (serve ((s.sensedBy c).heard.setLink (s.heard.link.push (replyFrame k tag r data))))
    (n = 0 ∨ 3600 < n → answered (.pay tag (pocketIndex p) n) 0x03 .badValue [1]) ∧
    (1 ≤ n ∧ n ≤ 3600 ∧ s.capturing = true → answered (.pay tag (pocketIndex p) n) 0x03 .busy []) ∧
    (1 ≤ n ∧ n ≤ 3600 ∧ s.capturing = false ∧ (st = .free ∨ st = .anticrease ∨ ∃ r, st = .held r) →
      answered (.pay tag (pocketIndex p) n) 0x03 .wrongState []) ∧
    (2 < n → answered (.heat tag (pocketIndex p) n) 0x05 .badValue [1]) ∧
    (n ≤ 2 ∧ st ≠ .heat → answered (.heat tag (pocketIndex p) n) 0x05 .wrongState []) ∧
    (st ≠ .heat → answered (.endHeat tag (pocketIndex p)) 0x06 .wrongState []) ∧
    (st ≠ .heat ∧ st ≠ .cool → answered (.pause tag (pocketIndex p)) 0x06 .wrongState []) ∧
    ((∀ r, st ≠ .paused r) → answered (.resume tag (pocketIndex p)) 0x06 .wrongState []) ∧
    ((∃ r, st = .paused r) ∧ (s.line p).doorOpen = true → answered (.resume tag (pocketIndex p)) 0x06 .interlock []) ∧
    (st = .free ∨ st = .pending → answered (.stop tag (pocketIndex p)) 0x06 .wrongState []) ∧
    (4 ≤ n ∧ n < 256 → s.link.receiver = .lead →
      let u := (senseRail s).setLink { s.link with
        receiver := .hunt
        buffer := []
        check := 0xFFFF }
      exec (.frameReceived (frameBytes 0x06 tag [byte (pocketIndex p), byte n])) s
        = .next (serve (u.heard.setLink (u.heard.link.push (replyFrame 0x06 tag .badValue [1])))))

/-- R13, R15: TELEMETRY stores the clamped values and restarts the age, in every state that no check of R3 refuses. HEAT stores
the level, clamped to the programme's maximum stages, and a stage that the stored level does not ask for is off. Each reply
tells what was clamped. -/
def Obligations.TelemetryAndHeatStored : Prop :=
  ∀ (tag : Byte) (p : Pocket) (s : State), s.takesMessages = true →
    (∀ (exhaust : Nat) (inlet : Int), (s.tracker p).state.busy = false →
      ∃ u, exec (.telemetry tag (pocketIndex p) exhaust inlet) s = .next (serve u) ∧
        u.tracker p = { s.tracker p with
          exhaust := some (if 150 < exhaust then 150 else exhaust)
          inlet := if inlet < -10 then -10 else if 60 < inlet then 60 else inlet
          age := 0 } ∧
        u.link = s.heard.link.push (replyFrame 0x04 tag .ok
          [byte ((if 150 < exhaust then 1 else 0) + (if inlet < -10 ∨ 60 < inlet then 2 else 0))]) ∧
        u.tracker (otherPocket p) = s.tracker (otherPocket p) ∧
        KeepsBut [.silence, .trackers, .writer, .link] s u ∧ u.writer.queue = s.writer.queue) ∧
    (∀ (level : Nat) (g : Programme), (s.tracker p).state = .heat → (s.tracker p).programme = some g → level ≤ 2 →
      ∃ u, exec (.heat tag (pocketIndex p) level) s = .next (serve u) ∧
        u.tracker p = { s.tracker p with level := min level g.maxStages } ∧
        u.link = s.heard.link.push (replyFrame 0x05 tag .ok
          [byte (min level g.maxStages), if g.maxStages < level then 1 else 0]) ∧
        (min level g.maxStages < 2 → u.loadOff ⟨p, .stage2⟩) ∧ (min level g.maxStages = 0 → u.loadOff ⟨p, .stage1⟩) ∧
        u.tracker (otherPocket p) = s.tracker (otherPocket p) ∧
        KeepsBut [.silence, .trackers, .schedules, .outputs, .arbiter, .writer, .link] s u ∧
        u.writer.queue = s.writer.queue)

/-- R17: END_HEAT takes P to min(P, C) and the pocket to COOL at level 0, its stages off, with a PHASE checkpoint; the reply
carries the forfeited seconds. The body shows the outputs as they stand after the event has turned them off: the model's choice (log
entry 9). -/
def Obligations.EndHeatForfeits : Prop :=
  ∀ (tag : Byte) (p : Pocket) (s : State),
    s.takesMessages = true → (s.tracker p).state = .heat → s.discardsCheckpoint p .phase = false →
    let t := s.tracker p
    ∃ u, exec (.endHeat tag (pocketIndex p)) s = .next (serve u) ∧
      (u.tracker p).state = .cool ∧ (u.tracker p).paid = min t.paid t.coolLen ∧ (u.tracker p).level = 0 ∧
      u.loadOff ⟨p, .stage1⟩ ∧ u.loadOff ⟨p, .stage2⟩ ∧
      u.link = s.heard.link.push (replyFrame 0x06 tag .ok (le16 (t.paid - min t.paid t.coolLen))) ∧
      u.writer.queue = takeCheckpoint ⟨p, .checkpoint .phase (u.progress p .cool)⟩ s.writer.queue ∧
      u.tracker (otherPocket p) = s.tracker (otherPocket p) ∧
      KeepsBut [.silence, .trackers, .schedules, .outputs, .arbiter, .alwaysOn, .writer, .link] s u

/-- R18: PAUSE of a pocket in HEAT or COOL and RESUME of a PAUSED one with its door closed: the state, the level 0, the motor
want, and the PAUSE checkpoint. The bodies show the outputs as they stand after the event has settled them: the model's choice (log
entry 9). -/
def Obligations.PauseAndResume : Prop :=
  ∀ (tag : Byte) (p : Pocket) (r : RunPhase) (s : State),
    s.takesMessages = true → s.discardsCheckpoint p .pause = false →
    ((s.tracker p).state = r.state →
      ∃ u, exec (.pause tag (pocketIndex p)) s = .next (serve u) ∧
        (u.tracker p).state = .paused r ∧ (u.tracker p).level = 0 ∧ (u.tracker p).paid = (s.tracker p).paid ∧
        u.pocketOff p ∧ u.link = s.heard.link.push (replyFrame 0x06 tag .ok []) ∧
        u.writer.queue = takeCheckpoint ⟨p, .checkpoint .pause (u.progress p (.paused r))⟩ s.writer.queue ∧
        u.tracker (otherPocket p) = s.tracker (otherPocket p) ∧
        KeepsBut [.silence, .trackers, .schedules, .outputs, .arbiter, .alwaysOn, .writer, .link] s u) ∧
    ((s.tracker p).state = .paused r → (s.line p).doorOpen = false →
      ∃ u, exec (.resume tag (pocketIndex p)) s = .next (serve u) ∧
        (u.tracker p).state = r.state ∧ (u.tracker p).level = 0 ∧ (u.tracker p).paid = (s.tracker p).paid ∧
        u.motorWanted p = true ∧ u.link = s.heard.link.push (replyFrame 0x06 tag .ok []) ∧
        u.writer.queue = takeCheckpoint ⟨p, .checkpoint .pause (u.progress p r.lossPhase)⟩ s.writer.queue ∧
        u.tracker (otherPocket p) = s.tracker (otherPocket p) ∧
        KeepsBut [.silence, .trackers, .schedules, .outputs, .arbiter, .alwaysOn, .writer, .link] s u)

/-- R19: STOP of an active pocket withdraws every want at once, takes the pocket to CLOSING with a CLOSE request that carries
the present P and anti-crease elapsed, clears its active flag (R2), and holds the reply. -/
def Obligations.StopCloses : Prop :=
  ∀ (tag : Byte) (p : Pocket) (s : State), s.takesMessages = true → (s.tracker p).state.active = true →
    ∃ u, exec (.stop tag (pocketIndex p)) s = .next (serve u) ∧
      (u.tracker p).state = .closing .stop ∧ (u.tracker p).paid = (s.tracker p).paid ∧ (u.tracker p).level = 0 ∧
      (u.tracker p).snapshot = none ∧ (u.schedule p).elapsed = (s.schedule p).elapsed ∧ u.pocketOff p ∧
      u.alwaysOn.active.get p = false ∧
      u.writer.queue = takeClose ⟨p, .close .stop (s.tracker p).paid (s.schedule p).elapsed⟩ s.writer.queue ∧
      u.link.inFlight = some ⟨0x06, tag, .stopped p⟩ ∧
      u.tracker (otherPocket p) = s.tracker (otherPocket p) ∧
      KeepsBut [.silence, .trackers, .schedules, .outputs, .arbiter, .alwaysOn, .writer, .link, .capture,
        .rail, .railAsks] s u

/-- R57: CLEAR_LIMIT in HEAT, COOL or PAUSED with LIM_x intact clears the latch and keeps the trip count; elsewhere, or with
LIM_x tripped, it is refused. -/
def Obligations.ClearLimit : Prop :=
  ∀ (tag : Byte) (p : Pocket) (s : State), s.takesMessages = true → (s.tracker p).state.busy = false →
    let answered (r : Result) : Prop := exec (.clearLimit tag (pocketIndex p)) s
      = .next (serve (s.heard.setLink (s.heard.link.push (replyFrame 0x07 tag r []))))
    ((s.tracker p).state.paying = false → answered .wrongState) ∧
    ((s.tracker p).state.paying = true ∧ (s.line p).limTripped = true → answered .interlock) ∧
    ((s.tracker p).state.paying = true ∧ (s.line p).limTripped = false →
      ∃ u, exec (.clearLimit tag (pocketIndex p)) s = .next (serve u) ∧
        (u.output p).latch = false ∧ u.trackers = s.trackers ∧
        u.link = s.heard.link.push (replyFrame 0x07 tag .ok
          [if (s.output p).latch then 1 else 0, byte (s.tracker p).trips]) ∧
        KeepsBut [.silence, .schedules, .outputs, .arbiter, .writer, .link] s u ∧ u.writer.queue = s.writer.queue)

/-! ## The clocks of a pocket (R9, R10, R25, R33 to R41) -/

/-- R9, R10: a paid second takes P down by one. HEAT whose P comes down to the cool length goes to COOL with a PHASE checkpoint;
COOL whose P comes down to 0 goes to ANTICREASE at position 0, or, without an anti-crease limit, to CLOSING. The bodies show the
outputs as they stand after the event has settled them: the model's choice (log entry 9). -/
def Obligations.PaidSecondCounts : Prop :=
  ∀ (p : Pocket) (s : State), s.on = true → s.paidCounts p = true → 0 < (s.tracker p).paid →
    let t := s.tracker p
    ∃ u, exec (.paidSecond p) s = .next (serve u) ∧
      (u.tracker p).paid = t.paid - 1 ∧ (u.tracker p).paidAcc = 0 ∧
      ((t.state = .heat ∧ t.paid - 1 ≠ t.coolLen) ∨ (t.state = .cool ∧ t.paid - 1 ≠ 0) →
        u = s.modTracker p fun t => { t with paid := t.paid - 1, paidAcc := 0 }) ∧
      (t.state = .heat ∧ t.paid - 1 = t.coolLen →
        (u.tracker p).state = .cool ∧ (u.tracker p).level = 0 ∧ u.loadOff ⟨p, .stage1⟩ ∧ u.loadOff ⟨p, .stage2⟩ ∧
        (s.discardsCheckpoint p .phase = false →
          u.writer.queue = takeCheckpoint ⟨p, .checkpoint .phase (u.progress p .cool)⟩ s.writer.queue)) ∧
      (t.state = .cool ∧ t.paid - 1 = 0 ∧ t.limit ≠ 0 →
        (u.tracker p).state = .anticrease ∧ u.schedule p = ⟨0, 0, some t.period, .rest, none, 0⟩ ∧ u.pocketOff p ∧
        (s.discardsCheckpoint p .phase = false →
          u.writer.queue = takeCheckpoint ⟨p, .checkpoint .phase (u.progress p .anticrease)⟩ s.writer.queue)) ∧
      (t.state = .cool ∧ t.paid - 1 = 0 ∧ t.limit = 0 →
        (u.tracker p).state = .closing .anticreaseNone ∧ u.pocketOff p ∧ u.alwaysOn.active.get p = false ∧
        u.writer.queue = takeClose ⟨p, .close .anticreaseNone 0 0⟩ s.writer.queue) ∧
      u.tracker (otherPocket p) = s.tracker (otherPocket p) ∧
      KeepsBut [.trackers, .schedules, .outputs, .arbiter, .alwaysOn, .writer, .capture] s u

/-- R33, R35, R37, R38, R41: an anti-crease second. One that takes A_e to the limit closes the cycle with reason LIMIT_END, and a
tumble that waited counts as skipped. Below the limit, a resting tumble becomes due at a boundary and a waiting one is skipped
there; at its end a running one rests, passes on when the end is a boundary and the motor is on, and is due again when the motor is
off. A tumble that is due may be granted at once. -/
def Obligations.AnticreaseSecond : Prop :=
  ∀ (p : Pocket) (s : State), s.on = true → s.frozen = false → (s.tracker p).state = .anticrease →
    let c := s.schedule p
    let e := c.elapsed + 1
    let length := (s.tracker p).period
    ((s.tracker p).limit ≤ e →
      ∃ u, exec (.anticreaseSecond p) s = .next (serve u) ∧
        (u.tracker p).state = .closing .limitEnd ∧ u.pocketOff p ∧ u.alwaysOn.active.get p = false ∧
        (u.schedule p).elapsed = e ∧ (u.schedule p).tumble = .rest ∧
        (u.schedule p).boundary = none ∧ (u.schedule p).tumbleEnd = none ∧
        (u.schedule p).skipped = (if c.tumble = .due then min 65535 (c.skipped + 1) else c.skipped) ∧
        u.writer.queue = takeClose ⟨p, .close .limitEnd 0 e⟩ s.writer.queue ∧
        u.tracker (otherPocket p) = s.tracker (otherPocket p) ∧
        KeepsBut [.trackers, .schedules, .outputs, .arbiter, .alwaysOn, .writer, .capture] s u) ∧
    (e < (s.tracker p).limit →
      ∃ u, exec (.anticreaseSecond p) s = .next (serve u) ∧
        (u.schedule p).elapsed = e ∧ u.trackers = s.trackers ∧
        (c.tumble = .rest ∧ c.boundary = some e →
          (u.schedule p).boundary = some (e + length) ∧ (u.schedule p).skipped = c.skipped ∧
          ((u.schedule p).tumble = .rest ↔ (s.tracker p).tumbleLen = 0)) ∧
        (c.tumble = .due ∧ c.boundary = some e →
          (u.schedule p).boundary = some (e + length) ∧ (u.schedule p).skipped = min 65535 (c.skipped + 1) ∧
          (u.schedule p).tumble ≠ .rest) ∧
        (c.tumble = .running ∧ c.tumbleEnd = some e ∧ c.boundary ≠ some e →
          (u.schedule p).tumble = .rest ∧ (u.schedule p).tumbleEnd = none ∧ (u.schedule p).boundary = c.boundary ∧
          u.loadOff ⟨p, .motor⟩) ∧
        (c.tumble = .running ∧ c.tumbleEnd = some e ∧ c.boundary = some e ∧ (s.output p).motor = true →
          (u.schedule p).tumble = .running ∧ (u.schedule p).boundary = some (e + length) ∧
          (u.schedule p).tumbleEnd = some (min (e + (s.tracker p).tumbleLen) (e + length)) ∧
          (u.schedule p).skipped = c.skipped) ∧
        (c.tumble = .running ∧ c.tumbleEnd = some e ∧ c.boundary = some e ∧ (s.output p).motor = false →
          (u.schedule p).tumble ≠ .rest ∧ (u.schedule p).boundary = some (e + length) ∧
          (u.schedule p).skipped = c.skipped) ∧
        KeepsBut [.schedules, .outputs, .arbiter] s u)

/-! ## The sensing inputs and the outputs (R20, R21, R45 to R62) -/

/-- R51, R48, R50: whatever has changed, settling the outputs leaves a motor on only while it is wanted, its door closed and
the mains PRESENT or SAG, a stage on only under every interlock, and the outputs in agreement with the arbiter. So from every state
whose loads are guarded, they are guarded after every step: no stage is ever on without all its interlocks. -/
def Obligations.SettlingKeepsTheInterlocks : Prop :=
  (∀ s : State, s.loadsAgree →
    (∀ p : Pocket, (s.output p).stage1 = true ∨ (s.output p).stage2 = true → s.mains.state = .present) →
    (settleOutputs s).loadsAgree ∧
      ∀ p : Pocket, (settleOutputs s).interlocked p ∧
        ((settleOutputs s).output p).motor = (((settleOutputs s).output p).motor && (settleOutputs s).motorAllowed p)) ∧
  (∀ s t : State, s.guarded → step s = .next t → t.guarded)

/-- R49, R65 (the invariant of R63's outputs): from every state in which the outputs agree with the arbiter, so they do after
a step: an output is on exactly while its load is granted, and no load is both queued and granted or listed twice. -/
def Obligations.StepKeepsTheLoadsInAgreement : Prop :=
  ∀ s t : State, s.loadsAgree → step s = .next t → t.loadsAgree

/-- R45, R20, R49: the door opens. Every load of the pocket is off; HEAT and COOL pause with a PAUSE checkpoint, ANTICREASE
closes, OPENING takes the door note, a guard tumble and a cooling tumble end, and no other state changes. The body is read after the
outputs have turned off: the model's choice (log entry 9). -/
def Obligations.DoorOpens : Prop :=
  ∀ (p : Pocket) (s : State), s.on = true → (s.line p).doorOpen = false →
    let st := (s.tracker p).state
    ∃ u, exec (.doorOpen p) s = .next (serve u) ∧ (u.line p).doorOpen = true ∧ u.pocketOff p ∧
      (∀ r : RunPhase, st = r.state →
        (u.tracker p).state = .paused r ∧ (u.tracker p).level = 0 ∧ (u.tracker p).paid = (s.tracker p).paid ∧
        (s.discardsCheckpoint p .pause = false →
          u.writer.queue = takeCheckpoint ⟨p, .checkpoint .pause (u.progress p (.paused r))⟩ s.writer.queue)) ∧
      (st = .anticrease →
        (u.tracker p).state = .closing .door ∧ (u.schedule p).tumble = .rest ∧
        (u.schedule p).skipped = (s.schedule p).skipped ∧
        u.writer.queue = takeClose ⟨p, .close .door 0 (s.schedule p).elapsed⟩ s.writer.queue) ∧
      (st = .opening → u.tracker p = { s.tracker p with doorNote := true }) ∧
      ((∃ r, st = .held r) → u.tracker p = { s.tracker p with held := none }) ∧
      (st = .pending → u.tracker p = s.tracker p ∧ (u.output p).guard = none) ∧
      (st = .free ∨ (∃ r, st = .paused r) ∨ st = .adopting ∨ (∃ r, st = .closing r) → u.tracker p = s.tracker p) ∧
      u.tracker (otherPocket p) = s.tracker (otherPocket p) ∧
      KeepsBut [.lines, .trackers, .schedules, .outputs, .arbiter, .alwaysOn, .writer, .capture, .rail, .railAsks] s u

/-- R45, R48: the door closes. No tracker changes, and a motor that is wanted with the mains PRESENT or SAG is queued or
granted. LIM_x returning intact changes no latch, and takes its level also while the main domain is stopped (log entry 3). -/
def Obligations.DoorClosesAndLimitReturns : Prop :=
  ∀ (p : Pocket) (s : State),
    (s.on = true → (s.line p).doorOpen = true →
      ∃ u, exec (.doorClose p) s = .next (serve u) ∧ (u.line p).doorOpen = false ∧
        (s.motorWanted p = true → s.mains.state.carriesMotors = true →
          ⟨p, .motor⟩ ∈ u.arbiter.queue ∨ ⟨p, .motor⟩ ∈ u.arbiter.granted) ∧
        KeepsBut [.lines, .schedules, .outputs, .arbiter] s u) ∧
    exec (.limitIntact p) s = .next (s.modLine p fun l => { l with limTripped := false })

/-- R55, R21: LIM_x trips. A clear latch is set and takes both stages off; in HEAT, COOL and PAUSED the trip is counted with a
LIMIT checkpoint, and the second puts the pocket in HELD with its cooling tumble. A latch already set reports nothing. The body shows
the outputs after the stages are off (log entry 9), and the cooling tumble is wanted with the door open too (log entry 38). -/
def Obligations.LimitTrips : Prop :=
  ∀ (p : Pocket) (s : State), s.on = true → (s.line p).limTripped = false →
    let t := s.tracker p
    ∃ u, exec (.limitTrip p) s = .next (serve u) ∧ (u.line p).limTripped = true ∧ (u.output p).latch = true ∧
      ((s.output p).latch = true → KeepsBut [.lines] s u) ∧
      ((s.output p).latch = false → u.loadOff ⟨p, .stage1⟩ ∧ u.loadOff ⟨p, .stage2⟩) ∧
      ((s.output p).latch = false ∧ t.state.paying = false → u.tracker p = t) ∧
      ((s.output p).latch = false ∧ t.state.paying = true ∧ min 2 (t.trips + 1) ≠ 2 →
        (u.tracker p).state = t.state ∧ (u.tracker p).trips = t.trips + 1 ∧ (u.tracker p).level = t.level) ∧
      ((s.output p).latch = false ∧ t.state.paying = true ∧ min 2 (t.trips + 1) = 2 →
        (u.tracker p).state = .held .limit ∧ (u.tracker p).trips = 2 ∧ (u.tracker p).level = 0 ∧
        (u.tracker p).held = some 0 ∧ (u.tracker p).paid = t.paid) ∧
      ((s.output p).latch = false ∧ t.state.paying = true ∧ s.discardsCheckpoint p .limit = false →
        ∃ phase, (u.tracker p).state.lossPhase = some phase ∧
          u.writer.queue = takeCheckpoint ⟨p, .checkpoint .limit (u.progress p phase)⟩ s.writer.queue) ∧
      u.tracker (otherPocket p) = s.tracker (otherPocket p) ∧
      KeepsBut [.lines, .trackers, .schedules, .outputs, .arbiter, .alwaysOn, .writer] s u

/-- R52, R53: AIR_x breaks, makes, and proves, for a pocket whose motor runs and may run: the airflow state, its count and its
timer, and the stages off after a break. -/
def Obligations.AirflowBreaksMakesAndProves : Prop :=
  ∀ (p : Pocket) (s : State), s.on = true → s.loadsAgree → (s.output p).motor = true → s.motorAllowed p = true →
    ((s.line p).airMade = true → (s.output p).airflow = .proving ∨ (s.output p).airflow = .proven →
      ∃ u, exec (.airflowBreak p) s = .next (serve u) ∧ (u.line p).airMade = false ∧
        (u.output p).airflow = (if (s.tracker p).state = .heat ∧ 0 < (s.tracker p).level then .timing else .unmade) ∧
        (u.output p).proving = 0 ∧ (u.output p).airTimer = 0 ∧ (u.output p).motor = true ∧
        u.loadOff ⟨p, .stage1⟩ ∧ u.loadOff ⟨p, .stage2⟩ ∧
        KeepsBut [.lines, .schedules, .outputs, .arbiter] s u) ∧
    ((s.line p).airMade = false → (s.output p).airflow = .unmade ∨ (s.output p).airflow = .timing →
      ∃ u, exec (.airflowMake p) s = .next (serve u) ∧ (u.line p).airMade = true ∧
        u.output p = { s.output p with airflow := .proving, proving := 0, airTimer := 0 } ∧
        u.output (otherPocket p) = s.output (otherPocket p) ∧ KeepsBut [.lines, .outputs] s u) ∧
    ((s.output p).airflow = .proving →
      ∃ u, exec (.airflowProven p) s = .next (serve u) ∧ (u.output p).airflow = .proven ∧
        (u.output p).proving = 3000 ∧ (u.output p).motor = true ∧
        (∀ i : Item, i ≠ .motor → u.inDemand p i = true → ⟨p, i⟩ ∈ u.arbiter.queue ∨ ⟨p, i⟩ ∈ u.arbiter.granted) ∧
        KeepsBut [.schedules, .outputs, .arbiter] s u)

/-- R54, R21, R22: the airflow timer's expiry holds a pocket in HEAT with reason AIRFLOW, its level 0, its motor running on
for the cooling tumble with the airflow UNMADE, and a PHASE checkpoint. -/
def Obligations.AirflowFaultHolds : Prop :=
  ∀ (p : Pocket) (s : State), s.on = true → s.loadsAgree → (s.output p).motor = true → s.motorAllowed p = true →
    (s.tracker p).state = .heat → (s.output p).airflow = .timing →
    ∃ u, exec (.airflowFault p) s = .next (serve u) ∧
      (u.tracker p).state = .held .airflow ∧ (u.tracker p).level = 0 ∧ (u.tracker p).held = some 0 ∧
      (u.tracker p).paid = (s.tracker p).paid ∧ (u.output p).airflow = .unmade ∧ (u.output p).airTimer = 0 ∧
      (u.output p).motor = true ∧ u.loadOff ⟨p, .stage1⟩ ∧ u.loadOff ⟨p, .stage2⟩ ∧
      (s.discardsCheckpoint p .phase = false →
        u.writer.queue = takeCheckpoint ⟨p, .checkpoint .phase (u.progress p (.held .airflow))⟩ s.writer.queue) ∧
      u.tracker (otherPocket p) = s.tracker (otherPocket p) ∧
      KeepsBut [.trackers, .schedules, .outputs, .arbiter, .alwaysOn, .writer] s u

/-- R25, R24, R14, R58, R59, R61, R62, R16: the timers expire. The periodic count of an active pocket with its clocks running brings a
periodic checkpoint of its live state and returns to 0: the progress body holds the pocket's P, A_e, telemetry, trip count and level,
and the outputs and the latch of that moment, its telemetry stale when its age is above TELE_STALE. A cooling tumble and a guard
tumble end and the motor is off; the silence timer sets SILENT, and every heat level is 0 and every stage off. -/
def Obligations.TimersExpire : Prop :=
  ∀ (p : Pocket) (s : State), s.on = true →
    (∀ phase : LossPhase, s.frozen = false → (s.tracker p).state.lossPhase = some phase →
      let o := s.output p
      let live : Progress :=
        { phase
          paid := (s.tracker p).paid
          elapsed := (s.schedule p).elapsed
          exhaust := match (s.tracker p).exhaust with | some e => e | none => 0
          inlet := (s.tracker p).inlet
          stale := decide (1000 * (s.settings.teleStale + 1) ≤ (s.tracker p).age)
          motorOn := o.motor
          stagesOn := (if o.stage1 then 1 else 0) + (if o.stage2 then 1 else 0)
          latched := o.latch
          trips := (s.tracker p).trips
          level := (s.tracker p).level }
      s.progress p phase = live ∧
        (s.discardsCheckpoint p .periodic = false →
          ∃ u, exec (.periodicCheckpoint p) s = .next (serve u) ∧
            u.tracker p = { s.tracker p with periodic := 0 } ∧
            u.writer.queue = takeCheckpoint ⟨p, .checkpoint .periodic live⟩ s.writer.queue ∧
            u.tracker (otherPocket p) = s.tracker (otherPocket p) ∧ KeepsBut [.trackers, .writer] s u)) ∧
    ((∃ r, (s.tracker p).state = .held r) →
      ∃ u, exec (.heldTumbleEnd p) s = .next (serve u) ∧
        u.tracker p = { s.tracker p with held := none } ∧ u.pocketOff p ∧
        u.tracker (otherPocket p) = s.tracker (otherPocket p) ∧
        KeepsBut [.trackers, .schedules, .outputs, .arbiter] s u) ∧
    ((s.tracker p).state = .pending →
      ∃ u, exec (.guardTumbleEnd p) s = .next (serve u) ∧ (u.output p).guard = none ∧ u.pocketOff p ∧
        KeepsBut [.schedules, .outputs, .arbiter] s u) ∧
    (∀ n : Nat, s.silence.left = some n →
      ∃ u, exec .silenceExpiry s = .next (serve u) ∧ u.silence = ⟨s.silence.armed, none, true⟩ ∧
        (∀ q : Pocket, u.tracker q = { s.tracker q with level := 0 } ∧ u.loadOff ⟨q, .stage1⟩ ∧ u.loadOff ⟨q, .stage2⟩) ∧
        KeepsBut [.silence, .trackers, .schedules, .outputs, .arbiter] s u)

/-! ## The arbiter (R64 to R76) -/

/-- R67, R69, R71: from a load within BUDGET, settling the outputs leaves it within BUDGET: stages are granted only where they
fit, and a motor start sheds the stages it needs. So a guarded state within the budget of a consistent table is so after every step,
a change of the table included, which finds every pocket FREE. -/
def Obligations.SettlingStaysWithinTheBudget : Prop :=
  (∀ s : State, s.settings.consistent = true → s.arbiter.proper → s.withinBudget → (settleOutputs s).withinBudget) ∧
  (∀ s t : State, s.guarded → s.recordsFit → s.budgeted → step s = .next t → t.budgeted)

/-- R65: where a request is placed: a MOTOR behind the queued motors and ahead of every stage, a stage at the tail with its own
queued STAGE2 moved behind a STAGE1, and nowhere when the item is queued or granted already. The queue keeps each item once and no
granted one, each STAGE2 behind its own STAGE1, and room for all six. -/
def Obligations.RequestsTakeTheirPlace : Prop :=
  ∀ (motors stages granted : List Load) (stagger : Option Nat) (l : Load),
    (∀ m ∈ motors, m.item = .motor) → (∀ m ∈ stages, m.item ≠ .motor) →
    let a : Arbiter := ⟨motors ++ stages, granted, stagger⟩
    let own : Load := ⟨l.pocket, .stage2⟩
    (l ∈ a.queue ∨ l ∈ granted → a.request l = a) ∧
    (l ∉ a.queue ∧ l ∉ granted →
      (l.item = .motor → (a.request l).queue = motors ++ l :: stages) ∧
      (l.item = .stage1 ∧ own ∈ stages → (a.request l).queue = motors ++ stages.filter (· ≠ own) ++ [l, own]) ∧
      (l.item = .stage1 ∧ own ∉ stages → (a.request l).queue = motors ++ stages ++ [l]) ∧
      (l.item = .stage2 → (a.request l).queue = motors ++ stages ++ [l]) ∧
      (a.request l).granted = granted ∧ (a.request l).stagger = stagger) ∧
    (a.proper → (a.request l).proper ∧ (a.request l).queue.length ≤ 6) ∧
    (a.ordered → (a.request l).ordered)

/-- R68 to R72, R36, R52: the stagger timer becomes ELAPSED with nothing else to settle and STAGGER above 0. A stage at the
head with the mains PRESENT, room in the budget and, for STAGE2, its own STAGE1 granted, is granted and turned on. A motor at the head
with the mains PRESENT or SAG is granted after the stages that it needs the current of are shed, newest grant first and no more of
them; they are queued again, STAGE1 before STAGE2 and a queued STAGE2 behind its shed STAGE1; its airflow begins to prove or to time,
and a waiting tumble runs to its end. No other load is granted, and nothing is when the head cannot be. -/
def Obligations.StaggerElapsedTestsTheHead : Prop :=
  ∀ (l : Load) (rest : List Load) (s : State), s.on = true → s.settled → s.arbiter.queue = l :: rest →
    0 < s.settings.stagger →
    let a := s.arbiter
    let fits : Prop := s.mains.state = .present ∧
      loadOf s.settings a.granted + s.settings.stageI ≤ s.settings.budget ∧
      (l.item = .stage2 → ⟨l.pocket, .stage1⟩ ∈ a.granted)
    let carried : Prop := s.mains.state = .present ∨ s.mains.state = .sag
    let moved (shed : List Load) (m : Load) : Bool := m.item == .stage2 && shed.contains ⟨m.pocket, .stage1⟩
    ∃ u, exec .staggerElapsed s = .next (serve u) ∧
      (l.item ≠ .motor ∧ fits → u.arbiter = ⟨a.queue.filter (· != l), a.granted ++ [l], some 0⟩ ∧
        (u.output l.pocket).item l.item = true ∧ u.output (otherPocket l.pocket) = s.output (otherPocket l.pocket) ∧
        u.schedules = s.schedules) ∧
      (¬ (if l.item = .motor then carried else fits) →
        u.arbiter = { a with stagger := none } ∧ u.outputs = s.outputs ∧ u.schedules = s.schedules) ∧
      (l.item = .motor ∧ carried →
        (∃ kept shed : List Load, a.granted.filter (·.item ≠ .motor) = kept ++ shed ∧
          (kept = [] ∨
            loadOf s.settings a.granted - shed.length * s.settings.stageI + s.settings.motorI ≤ s.settings.budget) ∧
          (∀ oldest others, shed = oldest :: others →
            s.settings.budget < loadOf s.settings a.granted - others.length * s.settings.stageI + s.settings.motorI) ∧
          u.arbiter = ⟨(rest.filter fun m => m != l && !moved shed m) ++ shed.filter (·.item = .stage1)
            ++ shed.filter (·.item = .stage2) ++ rest.filter (moved shed), a.granted.filter (· ∉ shed) ++ [l], some 0⟩ ∧
          (∀ m : Load, (u.output m.pocket).item m.item
            = (decide (m = l) || ((s.output m.pocket).item m.item && decide (m ∉ shed))))) ∧
        (u.output l.pocket).airflow = (if (s.line l.pocket).airMade then .proving
          else if (s.tracker l.pocket).state = .heat ∧ 0 < (s.tracker l.pocket).level then .timing else .unmade) ∧
        (u.output l.pocket).proving = 0 ∧ (u.output l.pocket).airTimer = 0 ∧
        u.schedule (otherPocket l.pocket) = s.schedule (otherPocket l.pocket) ∧
        (∀ n : Nat, (s.tracker l.pocket).state = .anticrease → (s.schedule l.pocket).tumble = .due →
          (s.schedule l.pocket).boundary = some n →
          u.schedule l.pocket = { s.schedule l.pocket with
            tumble := .running
            tumbleEnd := some (min ((s.schedule l.pocket).elapsed + (s.tracker l.pocket).tumbleLen) n) }) ∧
        ((s.tracker l.pocket).state ≠ .anticrease ∨ (s.schedule l.pocket).tumble ≠ .due →
          u.schedule l.pocket = s.schedule l.pocket)) ∧
      KeepsBut [.arbiter, .outputs, .schedules] s u

/-! ## The mains (R79 to R87) -/

/-- R79, R81, R82: a half-cycle with crest at or above LOSS_PCT in PRESENT or SAG moves the run count; the fourth low one enters
SAG, which turns every stage off and keeps the motors, and the fourth recovered one enters PRESENT. Its edge is the new
reference, and the row tells the rail's level (log entry 6). -/
def Obligations.EdgesInPresentAndSag : Prop :=
  ∀ (elapsed crest : Nat) (rail : Bool) (s : State), s.on = true → s.settings.lossPct ≤ crest →
    ∃ u, exec (.mainsEdge elapsed crest rail) s = .next (serve u) ∧
      (s.mains.state = .present ∨ s.mains.state = .sag →
        u.mains.hasRef = true ∧ u.mains.counted = 0 ∧ u.rail = rail ∧ u.trackers = s.trackers) ∧
      (s.mains.state = .present ∧ s.settings.sagPct ≤ crest →
        u.mains.state = .present ∧ u.mains.lowRun = 0 ∧ KeepsBut [.mains, .rail] s u) ∧
      (s.mains.state = .present ∧ crest < s.settings.sagPct ∧ s.mains.lowRun + 1 < 4 →
        u.mains.state = .present ∧ u.mains.lowRun = s.mains.lowRun + 1 ∧ KeepsBut [.mains, .rail] s u) ∧
      (s.mains.state = .present ∧ crest < s.settings.sagPct ∧ 4 ≤ s.mains.lowRun + 1 →
        u.mains.state = .sag ∧ u.mains.recoveryRun = 0 ∧ u.mains.sag = some 0 ∧ u.scrub.asked = false ∧
        (s.loadsAgree → ∀ p : Pocket, (u.output p).stage1 = false ∧ (u.output p).stage2 = false) ∧
        (∀ p : Pocket, (s.output p).motor = true → s.motorAllowed p = true → (u.output p).motor = true) ∧
        KeepsBut [.mains, .rail, .schedules, .outputs, .arbiter, .scrub] s u) ∧
      (s.mains.state = .sag ∧ crest < s.settings.sagPct + 5 →
        u.mains.state = .sag ∧ u.mains.recoveryRun = 0 ∧ KeepsBut [.mains, .rail] s u) ∧
      (s.mains.state = .sag ∧ s.settings.sagPct + 5 ≤ crest ∧ s.mains.recoveryRun + 1 < 4 →
        u.mains.state = .sag ∧ u.mains.recoveryRun = s.mains.recoveryRun + 1 ∧ KeepsBut [.mains, .rail] s u) ∧
      (s.mains.state = .sag ∧ s.settings.sagPct + 5 ≤ crest ∧ 4 ≤ s.mains.recoveryRun + 1 →
        u.mains.state = .present ∧ u.mains.lowRun = 0 ∧ u.mains.sag = none ∧
        KeepsBut [.mains, .rail, .schedules, .outputs, .arbiter, .scrub] s u)

/-- R84, R85, R87, R174: edges of the returning mains. In LOST a crest at or above RETURN_PCT enters QUALIFYING with count 1,
whatever the time, and a lower one only becomes the reference; in QUALIFYING a GOOD half-cycle at or above RETURN_PCT counts, and any
other with crest at or above LOSS_PCT clears the count. An owed return is announced at the entry to PRESENT when the scan is done: a
PENDING pocket whose phase at loss was HEAT or COOL, whose load is at HAZARD or above and whose door is closed gets a guard tumble,
its motor queued or granted, and no other does. A missing edge in LOST has no effect but that its row tells the rail's level (log
entry 6). -/
def Obligations.EdgesInLostAndQualifying : Prop :=
  ∀ (elapsed crest : Nat) (rail : Bool) (s : State), s.on = true →
    let good : Prop := s.mains.hasRef = true → s.mains.counted = 0 ∧ 85 * s.mains.halfUs ≤ 100 * elapsed
      ∧ 100 * elapsed ≤ 115 * s.mains.halfUs
    ∃ u, exec (.mainsEdge elapsed crest rail) s = .next (serve u) ∧
      (s.mains.state = .lost ∧ s.settings.returnPct ≤ crest →
        u.mains = { s.mains with
          state := .qualifying
          qual := 1
          hasRef := true
          counted := 0
          halfUs := s.settings.halfUs } ∧ KeepsBut [.mains, .rail] s u) ∧
      (s.mains.state = .lost ∧ crest < s.settings.returnPct →
        u.mains = { s.mains with hasRef := true, counted := 0, halfUs := s.settings.halfUs } ∧
        KeepsBut [.mains, .rail] s u) ∧
      (s.mains.state = .qualifying ∧ s.settings.lossPct ≤ crest ∧ good ∧ s.settings.returnPct ≤ crest ∧
          s.mains.qual + 1 < s.settings.qualN →
        u.mains.state = .qualifying ∧ u.mains.qual = s.mains.qual + 1 ∧ KeepsBut [.mains, .rail] s u) ∧
      (s.mains.state = .qualifying ∧ s.settings.lossPct ≤ crest ∧ good ∧ s.settings.returnPct ≤ crest ∧
          s.settings.qualN ≤ s.mains.qual + 1 →
        u.mains.state = .present ∧ u.mains.qual = 0 ∧ (s.scanning = false → u.mains.returnOwed = false) ∧
        (s.scanning = true → u.mains.returnOwed = s.mains.returnOwed ∧ ∀ p : Pocket,
          (u.output p).guard = (s.output p).guard) ∧
        (∀ p : Pocket,
          let warm : Prop := s.scanning = false ∧ s.mains.returnOwed = true ∧ (s.tracker p).state = .pending ∧
            (s.line p).doorOpen = false ∧ ∃ c, (s.tracker p).context = some c ∧ (c.phase = .heat ∨ c.phase = .cool) ∧
              (s.settings.hazard : Int) ≤ c.loadTemp s.settings (s.planStall p c)
          (warm → (u.output p).guard = some ((s.output p).guard.getD 0) ∧
            (⟨p, .motor⟩ ∈ u.arbiter.queue ∨ ⟨p, .motor⟩ ∈ u.arbiter.granted)) ∧
          (¬ warm → (u.output p).guard = (s.output p).guard)) ∧
        KeepsBut [.mains, .rail, .schedules, .outputs, .arbiter, .scrub] s u) ∧
      (s.mains.state = .qualifying ∧ s.settings.lossPct ≤ crest ∧ ¬ (good ∧ s.settings.returnPct ≤ crest) →
        u.mains.state = .qualifying ∧ u.mains.qual = 0 ∧ KeepsBut [.mains, .rail] s u) ∧
      (s.mains.state = .lost → exec (.missingEdge rail) s = .next (serve (s.setRail rail)))

/-- R81, R82, R86, R9, R27, R75, R90, R143: a missing edge in PRESENT or SAG is a FALTERING entry. The paid clocks freeze,
every active pocket takes the snapshot of its live state and its stall timer is started PROVISIONAL, the capture begins, its counts
at 0 (log entry 26), and every load is off. No OPEN or ADOPT waits in the queue here (R145 is stated apart). A capture that is in
progress goes on instead, its window open and the fresh snapshots in its list (R152). A half-cycle with crest below LOSS_PCT is a
missing edge whose edge is the new reference, and only the reference when its interval is already counted missing (R79); with SAG_PCT
at or below LOSS_PCT a crest between the two counts so too, the model's choice (log entry 50). The rows tell the rail's level (log
entry 6). -/
def Obligations.MissingEdgeEntersFaltering : Prop :=
  (∀ (rail : Bool) (s : State), s.on = true → s.mains.state = .present ∨ s.mains.state = .sag →
    ∃ u, exec (.missingEdge rail) s = .next (serve u) ∧
      u.mains.state = .faltering ∧ u.mains.missing = 1 ∧ u.mains.sag = none ∧ u.mains.priorSag = (s.mains.state == .sag) ∧
      u.frozen = true ∧ u.rail = rail ∧ u.capture.reason = some .mains ∧ u.capture.window = true ∧
      (s.capturing = false → (∀ r ∈ s.writer.queue, r.data.isCheckpoint = true ∨ r.data.isClose = true) →
        u.capture.state = (if s.scanning then .standing else .finishing) ∧ u.capture.restart = false ∧
        u.capture.written = 0 ∧ u.capture.notWritten = 0 ∧ u.capture.ended = false ∧
        u.writer.queue = s.writer.queue.filter (·.data.isClose)) ∧
      (s.capturing = true →
        u.capture.state = s.capture.state ∧ u.capture.restart = s.capture.restart ∧
        u.capture.written = s.capture.written ∧ u.capture.notWritten = s.capture.notWritten ∧
        u.capture.ended = s.capture.ended ∧ u.writer = s.writer ∧ u.link = s.link) ∧
      (s.capturing = true ∨ (∀ r ∈ s.writer.queue, r.data.isCheckpoint = true ∨ r.data.isClose = true) →
        (∀ (p : Pocket) (phase : LossPhase), (s.tracker p).state.lossPhase = some phase →
          u.tracker p = { s.tracker p with
            snapshot := some ⟨s.progress p phase, (s.tracker p).programme, (s.tracker p).cycleStamp⟩ } ∧
          (s.capturing = false ∨ s.capture.ended = false →
            ⟨p, .mains, (s.tracker p).cycleStamp, s.progress p phase⟩ ∈ u.capture.losses) ∧
          u.stall p = (if (s.stall p).running then s.stall p else ⟨true, 0, .provisional, 0⟩)) ∧
        (∀ p : Pocket, (s.tracker p).state.lossPhase = none → u.tracker p = s.tracker p ∧ u.stall p = s.stall p) ∧
        (∀ p : Pocket, u.pocketOff p) ∧
        KeepsBut [.mains, .rail, .frozen, .trackers, .schedules, .outputs, .arbiter, .alwaysOn, .capture, .writer, .link,
          .scrub] s u)) ∧
  (∀ (rail : Bool) (elapsed crest : Nat) (s : State), s.on = true → s.mains.state ≠ .lost → crest < s.settings.lossPct →
    let referred (u : State) : State := u.setMains { u.mains with
      hasRef := true
      counted := 0
      halfUs := s.settings.halfUs }
    (s.mains.counted = 0 →
      ∃ u, exec (.missingEdge rail) s = .next (serve u) ∧
        exec (.mainsEdge elapsed crest rail) s = .next (serve (referred u))) ∧
    (s.mains.counted ≠ 0 →
      exec (.mainsEdge elapsed crest rail) s = .next (serve (referred (s.setRail rail)))))

/-- R83, R85, R29, R30, R46, R76, R91: the missing edge that reaches MISS_N in FALTERING, or any in QUALIFYING, is LOST; one
below MISS_N raises the count alone. At LOST every active pocket moves to PENDING with the context of its snapshot, its cycle stamp
the one that the writer holds by then (log entry 28), every PROVISIONAL timer becomes FIRM, every output is off and the arbiter is
cleared; the clocks run again unless a RESTART holds them. -/
def Obligations.MissingEdgeLosesTheMains : Prop :=
  (∀ (rail : Bool) (s : State), s.on = true → s.mains.state = .faltering → s.mains.missing + 1 < s.settings.missN →
    exec (.missingEdge rail) s = .next (serve ((s.setRail rail).setMains { s.mains with
      counted := s.mains.counted + 1
      missing := s.mains.missing + 1 }))) ∧
  ∀ (rail : Bool) (s : State), s.on = true →
    (s.mains.state = .faltering ∧ s.settings.missN ≤ s.mains.missing + 1) ∨ s.mains.state = .qualifying →
    ∃ u, exec (.missingEdge rail) s = .next (serve u) ∧
      u.mains.state = .lost ∧ u.mains.missing = 0 ∧ u.mains.qual = 0 ∧ u.mains.lowRun = 0 ∧ u.mains.recoveryRun = 0 ∧
      u.mains.sag = none ∧ u.mains.returnOwed = true ∧ u.frozen = (s.frozen && s.capture.restart) ∧
      u.arbiter = ⟨[], [], none⟩ ∧ (∀ p : Pocket, u.pocketOff p ∧ (u.output p).guard = none ∧
        (u.output p).airflow = .off ∧ (u.output p).latch = (s.output p).latch) ∧
      (∀ (p : Pocket) (phase : LossPhase) (n : Snapshot), (s.tracker p).state.lossPhase = some phase →
        (s.tracker p).snapshot = some n →
        (u.tracker p).state = .pending ∧ (u.tracker p).level = 0 ∧ (u.tracker p).programme = none ∧
        (u.tracker p).snapshot = none ∧
        (u.tracker p).context = some ⟨(s.tracker p).newestStamp, (s.tracker p).cycleStamp, n.body.phase, n.body.paid,
          n.body.elapsed,
          if n.body.stale then none else some n.body.exhaust, n.body.inlet, n.body.trips, n.programme,
          if s.alwaysOn.marker then .timer else .unbounded, markFor n.programme n.body.phase⟩ ∧
        u.stall p = (if (s.stall p).running then { s.stall p with origin := .firm } else ⟨true, 0, .firm, 0⟩)) ∧
      (∀ p : Pocket, (s.tracker p).state.lossPhase = none →
        u.tracker p = s.tracker p ∧ u.stall p = { s.stall p with origin := .firm }) ∧
      KeepsBut [.mains, .rail, .frozen, .trackers, .schedules, .outputs, .arbiter, .alwaysOn, .capture] s u

/-- R83, R29, R91, R151: a GOOD half-cycle in FALTERING below MISS_N is a ride-through. The mains returns to its prior state,
the snapshots go, the clocks run again (no RESTART holds them here), PROVISIONAL timers are cleared and FIRM ones kept, and every
active pocket asks for a RIDE_THROUGH checkpoint. Any other half-cycle with crest at or above LOSS_PCT, BAD or too late, changes the
reference alone. -/
def Obligations.GoodEdgeRidesThrough : Prop :=
  (∀ (elapsed crest : Nat) (rail : Bool) (s : State), s.on = true → s.mains.state = .faltering →
    s.settings.lossPct ≤ crest →
    s.settings.missN ≤ s.mains.missing ∨ (s.mains.hasRef = true ∧ (s.mains.counted ≠ 0 ∨
      100 * elapsed < 85 * s.mains.halfUs ∨ 115 * s.mains.halfUs < 100 * elapsed)) →
    exec (.mainsEdge elapsed crest rail) s = .next (serve ((s.setRail rail).setMains { s.mains with
      hasRef := true
      counted := 0
      halfUs := s.settings.halfUs }))) ∧
  ∀ (elapsed crest : Nat) (rail : Bool) (s : State), s.on = true → s.mains.state = .faltering →
    s.mains.missing < s.settings.missN → s.settings.lossPct ≤ crest → s.mains.hasRef = true → s.mains.counted = 0 →
    85 * s.mains.halfUs ≤ 100 * elapsed → 100 * elapsed ≤ 115 * s.mains.halfUs → s.capture.restart = false →
    ∃ u, exec (.mainsEdge elapsed crest rail) s = .next (serve u) ∧
      u.mains.state = (if s.mains.priorSag then .sag else .present) ∧ u.mains.missing = 0 ∧ u.mains.lowRun = 0 ∧
      u.mains.recoveryRun = 0 ∧ u.mains.sag = (if s.mains.priorSag then some 0 else none) ∧ u.frozen = false ∧
      (∀ p : Pocket, (u.tracker p).state = (s.tracker p).state ∧ (u.tracker p).snapshot = none ∧
        (u.tracker p).paid = (s.tracker p).paid ∧
        u.stall p = (if (s.stall p).origin = .provisional then ⟨false, 0, .firm, 0⟩ else s.stall p)) ∧
      (∀ (p : Pocket) (phase : LossPhase), (s.tracker p).state.lossPhase = some phase → s.writer.closing p = false →
        ∃ body : Progress, body.phase = phase ∧ body.paid = (s.tracker p).paid ∧
          ⟨p, .checkpoint .rideThrough body⟩ ∈ u.writer.queue) ∧
      KeepsBut [.mains, .rail, .frozen, .trackers, .schedules, .outputs, .arbiter, .alwaysOn, .capture, .writer, .scrub]
        s u

/-- R82, R86: the sag timer's expiry in SAG is a sag-loss: the snapshots and the capture of a FALTERING entry, with reason SAG
and FIRM timers, and LOST within the same event. In any other mains state the timer does not run and the row does nothing (log
entry 3). -/
def Obligations.SagLossIsLost : Prop :=
  ∀ (rail : Bool) (s : State), s.on = true → s.capturing = false →
    (∀ r ∈ s.writer.queue, r.data.isCheckpoint = true ∨ r.data.isClose = true) →
    (s.mains.state = .sag →
      ∃ u, exec (.sagLoss rail) s = .next (serve u) ∧ u.mains.state = .lost ∧ u.mains.sag = none ∧
        u.mains.returnOwed = true ∧ u.frozen = false ∧ u.arbiter = ⟨[], [], none⟩ ∧ (∀ p : Pocket, u.pocketOff p) ∧
        (∀ (p : Pocket) (phase : LossPhase), (s.tracker p).state.lossPhase = some phase →
          (u.tracker p).state = .pending ∧
          (∃ c, (u.tracker p).context = some c ∧ c.phase = phase ∧ c.paid = (s.tracker p).paid ∧
            c.elapsed = (s.schedule p).elapsed ∧ c.programme = (s.tracker p).programme) ∧
          u.stall p = (if (s.stall p).running then { s.stall p with origin := .firm } else ⟨true, 0, .firm, 0⟩)) ∧
        (s.scanning = false → ∀ (p : Pocket) (phase : LossPhase), (s.tracker p).state.lossPhase = some phase →
          ∃ e ∈ u.capture.losses, e.pocket = p ∧ e.reason = .sag ∧ e.body.phase = phase) ∧
        KeepsBut [.mains, .rail, .frozen, .trackers, .schedules, .outputs, .arbiter, .alwaysOn, .capture, .writer, .link,
          .scrub] s u) ∧
    (s.mains.state ≠ .sag → exec (.sagLoss rail) s = .next (serve s))

/-! ## The stall timers and the reserve (R89 to R96) -/

/-- R89, R95, R96: the always-on domain. A whole period of the stall oscillator advances every running timer by one, up to the
saturated count, whether the main domain runs or not, each at the same place of its own next period (log entry 11); a stopped timer
does not move. Below the reserve floor the domain loses its state; back above it the trackers of a running main domain rewrite the
active flags and the timers of PENDING and ADOPTING pockets start saturated; the ready level makes the marker valid, and the reserve
READY; below the ready level it is LOW. -/
def Obligations.AlwaysOnEvents : Prop :=
  ∀ s : State,
    (∃ t, exec .stallTick s = .next t ∧
      (∀ p : Pocket, (s.stall p).running = true →
        t.stall p = { s.stall p with count := min 1048575 ((s.stall p).count + 1) }) ∧
      (∀ p : Pocket, (s.stall p).running = false → t.stall p = s.stall p) ∧
      t.alwaysOn.active = s.alwaysOn.active ∧ t.alwaysOn.marker = s.alwaysOn.marker ∧
      t.alwaysOn.causes = s.alwaysOn.causes ∧ KeepsBut [.alwaysOn] s t) ∧
    (∃ t, exec .reserveFloorLoss s = .next t ∧
      t.alwaysOn = ⟨⟨⟨false, 0, .firm, 0⟩, ⟨false, 0, .firm, 0⟩⟩, ⟨false, false⟩, ⟨false, false, false, false⟩, false,
        .belowFloor⟩ ∧ t.alwaysOn.reserveState = .charging ∧ KeepsBut [.alwaysOn] s t) ∧
    (s.alwaysOn.reserve = .belowFloor →
      ∃ t, exec .reserveFloorRestored s = .next t ∧ t.alwaysOn.reserve = .belowReady ∧
        t.alwaysOn.marker = s.alwaysOn.marker ∧
        (s.on = true → ∀ p : Pocket, t.alwaysOn.active.get p = (s.tracker p).state.flagged ∧
          t.stall p = (if (s.tracker p).state.planPending && !(s.stall p).running then ⟨true, 1048575, .firm, 0⟩
            else s.stall p)) ∧
        KeepsBut [.alwaysOn] s t) ∧
    (s.alwaysOn.reserve = .belowReady →
      ∃ t, exec .reserveReady s = .next t ∧ t.alwaysOn = { s.alwaysOn with reserve := .ready, marker := true } ∧
        t.alwaysOn.reserveState = .ready ∧ KeepsBut [.alwaysOn] s t) ∧
    (s.alwaysOn.reserve = .ready →
      ∃ t, exec .reserveLow s = .next t ∧ t.alwaysOn = { s.alwaysOn with reserve := .belowReady } ∧
        t.alwaysOn.reserveState = (if s.alwaysOn.marker then .low else .charging) ∧ KeepsBut [.alwaysOn] s t)

/-! ## The journal (R98 to R122) -/

/-- R105, R109: target selection steps the cursor forward to the first slot that is neither protected nor retired (nor, for a
relocation, the original, R124), the slot the cursor names last, and finds none exactly when no slot is eligible. -/
def Obligations.TargetIsTheFirstEligibleSlot : Prop :=
  ∀ (w : Writer) (original : Option Nat),
    let barred (i : Nat) : Prop := w.protection.a.newest = some i ∨ w.protection.a.openSlot = some i ∨
      w.protection.b.newest = some i ∨ w.protection.b.openSlot = some i ∨ i ∈ w.retired ∨ original = some i
    (∀ i : Nat, w.target original = some i → i < 96 ∧ ¬ barred i ∧
      ∃ k < 96, i = (w.cursor + 1 + k) % 96 ∧ ∀ j < k, barred ((w.cursor + 1 + j) % 96)) ∧
    (w.target original = none → ∀ i < 96, barred i)

/-- R106, R116: the Journal Writer's service never writes the array, the inputs, the settings or the command queue. It waits while
an operation is in flight or the main domain is stopped, and, when a record can be written and the scan is done, it leaves every
tracker, schedule, output, timer and clock alone too. -/
def Obligations.ServingLeavesTheCyclesAlone : Prop :=
  ∀ s : State,
    (s.writer.op ≠ .idle ∨ s.on = false → serve s = s) ∧
    (s.canWrite = true → s.scanning = false → KeepsBut [.writer, .capture, .link, .scan, .scrub] s (serve s)) ∧
    KeepsBut [.trackers, .schedules, .outputs, .alwaysOn, .capture, .link, .arbiter, .writer, .mains, .scan, .scrub]
      s (serve s)

/-- R106, R103, R109, R110, R100, R113, R116: what an idle writer starts next, with no capture and the scan done: the map write
that is due; the carried record's retry; the step in hand; the oldest request of the queue; behind the queue an own demand scrub of a
stream, the read-out read (a RETIRED slot is not read, and its frame is sent at once, R120) or the settings write, another demand
scrub, a patrol step; and otherwise nothing. An attempt takes the counter's stamp and the target that the cursor finds, the counter
goes up by one (to EXHAUSTED after the last stamp, which enters WORN), and the body is the one fixed in the queue. Without a stamp or
a slot the request ends unwritten, and its owner acts on it as on a complete one, but takes no stamp (R116). -/
def Obligations.ServingStartsTheOldestRequest : Prop :=
  ∀ s : State, s.on = true → s.scanning = false → s.capturing = false → s.writer.op = .idle →
    let w := s.writer
    let u := serve s
    let attempts (r : Request) (k n i : Nat) : Prop :=
      u.writer.op = .record ⟨r, k, n, i, recordBytes r.data.kind r.pocket r.data.reason n
        (if r.data.kind = .openCycle then n else (w.protection.get r.pocket).cycleStamp) r.data.body⟩ ∧
      u.writer.cursor = i ∧ u.writer.counter = (if n < 4294967295 then some (n + 1) else none) ∧
      u.writer.worn = (w.worn || decide (4294967295 ≤ n)) ∧ u.writer.protection = w.protection ∧
      u.writer.retired = w.retired ∧ KeepsBut [.writer, .scan, .scrub, .link] s u
    (w.mapDue ≠ .no →
      u = s.setWriter { w with op := .mapWrite (decide (w.mapDue = .second)), mapDue := .no }) ∧
    (w.mapDue = .no →
      (∀ r k n i, w.carried = some (r, k) → w.counter = some n → w.target none = some i →
        attempts r k n i ∧ u.writer.carried = none ∧ u.writer.queue = w.queue) ∧
      (∀ j, w.carried = none → w.job = some j →
        (∀ b k i, j.next = .copy b k → w.target (some j.slot) = some i →
          u.writer.op = .copy ⟨j.slot, i, b, k⟩ ∧ u.writer.cursor = i ∧ u.writer.counter = w.counter ∧
          u.writer.queue = w.queue ∧ KeepsBut [.writer, .scan, .scrub, .link] s u) ∧
        (j.next = .eraseOriginal → w.protects j.slot = false → j.slot ∉ w.retired →
          u.writer.op = .erase j.slot .corrected ∧ u.writer.lost = w.lost ∧ u.writer.queue = w.queue ∧
          KeepsBut [.writer, .scrub, .link] s u)) ∧
      (∀ r rest, w.carried = none → w.job = none → w.queue = r :: rest →
        (∀ n i, w.counter = some n → w.target none = some i → attempts r 0 n i ∧ u.writer.queue = rest) ∧
        (w.counter = none ∨ w.target none = none → rest = [] → w.demands = [] → w.readAsked = none →
          w.settingsAsked = false → s.scrub.asked = false →
          (∀ p k b, r = ⟨p, .checkpoint k b⟩ → u = s.setWriter { w with queue := [] }) ∧
          (∀ p k paid elapsed, r = ⟨p, .close k paid elapsed⟩ →
            (u.tracker p).state = .free ∧ u.stall p = ⟨false, 0, .firm, 0⟩ ∧ u.writer.op = .idle ∧
            u.writer.queue = [] ∧ u.writer.protection = w.protection.set p ⟨none, none, 0⟩ ∧
            u.writer.counter = w.counter ∧ u.array = s.array) ∧
          (∀ p g, r = ⟨p, .openCycle g false⟩ → s.frozen = false → s.mains.state ≠ .lost →
            (u.tracker p).state = (if (s.tracker p).doorNote then .paused (runPhaseFor g.initialPaid g.coolLen)
              else (runPhaseFor g.initialPaid g.coolLen).state) ∧
            (u.tracker p).cycleStamp = (s.tracker p).cycleStamp ∧ (u.tracker p).newestStamp = (s.tracker p).newestStamp ∧
            u.writer = { w with queue := [] } ∧ u.array = s.array))) ∧
      (w.carried = none → w.job = none → w.queue = [] →
        (∀ d bytes i, w.demands.find? (·.own) = some d → d.finding = .validCorrected bytes →
          s.scrub.unfinished ≠ some d.slot → w.target (some d.slot) = some i →
          u.writer.op = .copy ⟨d.slot, i, bytes, 0⟩ ∧ u.writer.readAsked = w.readAsked) ∧
        (∀ i, w.demands.find? (·.own) = none → w.readAsked = some i →
          (i ∉ w.retired → u = s.setWriter { w with op := .readoutRead i true, readAsked := none }) ∧
          (i ∈ w.retired → ∀ t : Stream, s.link.stream = some t → w.demands = [] → w.settingsAsked = false →
            s.scrub.asked = false →
            u = (s.setWriter { w with readAsked := none }).setLink (s.link.push ⟨0x8B, t.tag,
              [0, byte t.flag, byte t.cursor, 3, 0] ++ List.replicate 26 0, true, none, false⟩))) ∧
        (w.demands.find? (·.own) = none → w.readAsked = none → w.settingsAsked = true →
          u = s.setWriter { w with op := .settingsWrite false, settingsAsked := false }) ∧
        (∀ d rest, w.demands = d :: rest → d.own = false → w.demands.find? (·.own) = none → w.readAsked = none →
          w.settingsAsked = false → d.finding = .torn → w.protects d.slot = false → d.slot ∉ w.retired →
          u.writer.op = .erase d.slot .torn ∧ u.writer.lost = min 65535 (w.lost + 1)) ∧
        (w.demands = [] → w.readAsked = none → w.settingsAsked = false → s.scrub.asked = true →
          s.mains.state = .present →
          (∀ i, s.scrub.unfinished = some i → w.protects i = false → i ∉ w.retired →
            u.writer.op = .erase i .corrected ∧ u.scrub.unfinished = none) ∧
          (∀ i, s.scrub.unfinished = none → s.patrolSlot = some i →
            u.writer.op = .scrubRead i ∧ u.scrub = { s.scrub with timer := 0, asked := false } ∧ i ∉ w.retired)) ∧
        (w.demands = [] → w.readAsked = none → w.settingsAsked = false →
          s.scrub.asked = false ∨ s.mains.state ≠ .present → u = s)))

/-- R101, R99, R100, R102, R130, R131: the bytes of a written record read back as the record: 26 bytes, a VALID content, its kind,
pocket, stamp and cycle stamp (an OPEN's own stamp), and, for an OPEN whose programme is in range, the programme. The recovery scan
takes a CLOSE, and the ADOPT of a FINISH plan, as the end of the cycle, and makes of every other record a resume context with the
figures of its body. -/
def Obligations.RecordsReadBack : Prop :=
  ∀ (r : Request) (n cycleStamp : Nat), 0 < n → n < 4294967296 → cycleStamp < 4294967296 →
    let bs := r.bytes n cycleStamp
    bs.length = 26 ∧ conditionOf bs = .valid ∧ recKind bs = some r.data.kind ∧ recPocket bs = some r.pocket ∧
    recStamp bs = n ∧ recCycleStamp bs = (if r.data.kind = .openCycle then n else cycleStamp) ∧
    (∀ (g : Programme) (again : Bool), r.data = .openCycle g again →
      programmeFault g.setpoint g.maxStages g.loadClass.code g.coolLen g.period g.tumble g.limit g.initialPaid = none →
      programmeOf bs = some g) ∧
    (endsPending bs = false ↔
      r.data.isClose = true ∨ ∃ l x i k b, r.data = .adopt l x i k b ∧ l.phase = none) ∧
    ∀ (programme : Option Programme) (source : StallSource),
      let reads (phase : LossPhase) (paid elapsed : Nat) (exhaust : Option Nat) (inlet : Int) (trips : Nat) : Prop :=
        recordContext bs programme source = ⟨n, recCycleStamp bs, phase, paid, elapsed, exhaust, inlet, trips, programme,
          source, markFor programme phase⟩
      (∀ (g : Programme) (again : Bool), r.data = .openCycle g again → g.coolLen < 65536 → g.initialPaid ≤ 21600 →
        reads (if g.coolLen < g.initialPaid then .heat else .cool) g.initialPaid 0 none 20 0) ∧
      (∀ b : Progress, (∃ k, r.data = .checkpoint k b) ∨ (∃ k, r.data = .loss k b) → b.paid ≤ 21600 → b.elapsed ≤ 7200 →
        b.exhaust ≤ 150 → -10 ≤ b.inlet ∧ b.inlet ≤ 60 → b.trips ≤ 2 →
        reads b.phase b.paid b.elapsed (if b.stale then none else some b.exhaust) b.inlet b.trips) ∧
      (∀ (l : Plan) (x : Option Nat) (i : Int) (k : Nat) (b : Bool) (phase : LossPhase), r.data = .adopt l x i k b →
        l.phase = some phase → l.paid ≤ 21600 → l.position ≤ 7200 → (∀ e, x = some e → e ≤ 150) → -10 ≤ i ∧ i ≤ 60 →
        k ≤ 2 → reads phase l.paid l.position x i k) ∧
      (∀ (k : CloseReason) (paid elapsed : Nat), r.data = .close k paid elapsed → paid < 65536 → elapsed < 65536 →
        u16 bs 10 = paid ∧ u16 bs 12 = elapsed)

/-- R7, R104, R110: the OPEN of an accepted OPEN_CYCLE reads back as written, with no capture in progress, the clocks running and
the mains not LOST. The slot holds the record and is protected, the pocket enters its starting phase, or PAUSED when the door opened
meanwhile, with the programme, the paid time and the stamp, and the held reply is sent with the starting phase; so it is in QUALIFYING
too (log entry 34). R26, R100: a re-emitted OPEN gives the cycle its stamp, to a resume context as well (log entry 28), and an active
pocket asks for a REEMIT checkpoint. R28, R144, R146, R90, R8: an OPEN that completes in a capture while the clocks are frozen or the
mains is LOST meets the loss: a LOSS entry of its starting figures joins the list and its stall timer starts. With the mains LOST the
pocket is PENDING at once, with a context of the same figures, and otherwise it is active with its snapshot. -/
def Obligations.OpenRecordCompletes : Prop :=
  (∀ (rail : Bool) (t : Attempt) (p : Pocket) (g : Programme) (s : State), s.on = true → s.writer.op = .record t →
    t.req = ⟨p, .openCycle g false⟩ → t.slot < 96 → s.array.wf = true → (s.tracker p).state = .opening →
    s.frozen = false → s.mains.state ≠ .lost → s.capturing = false →
    let phase : RunPhase := if g.coolLen < g.initialPaid then .heat else .cool
    ∃ u, exec (.recordAttemptDone .matched rail) s = .next (serve u) ∧
      u.slot t.slot = ⟨t.bytes, .sound⟩ ∧ (∀ i, i ≠ t.slot → u.slot i = s.slot i) ∧ u.writer.op = .idle ∧
      u.writer.protection.get p = ⟨some t.slot, some t.slot, t.stamp⟩ ∧
      u.writer.protection.get (otherPocket p) = s.writer.protection.get (otherPocket p) ∧
      (u.tracker p).state = (if (s.tracker p).doorNote then .paused phase else phase.state) ∧
      (u.tracker p).programme = some g ∧ (u.tracker p).cycleStamp = t.stamp ∧ (u.tracker p).newestStamp = t.stamp ∧
      (u.tracker p).paid = g.initialPaid ∧ (u.tracker p).paidAcc = 0 ∧ (u.tracker p).trips = 0 ∧
      (u.tracker p).level = 0 ∧ (u.tracker p).periodic = 0 ∧ (u.schedule p).elapsed = 0 ∧
      u.alwaysOn.active.get p = true ∧
      (∀ k tag, s.link.inFlight = some ⟨k, tag, .opened p⟩ →
        u.link.inFlight = none ∧ replyFrame k tag .ok (byte phase.lossPhase.code :: le32 t.stamp) ∈ u.link.frames) ∧
      u.tracker (otherPocket p) = s.tracker (otherPocket p) ∧
      KeepsBut [.rail, .array, .writer, .trackers, .schedules, .outputs, .arbiter, .alwaysOn, .link] s u) ∧
  (∀ (rail : Bool) (t : Attempt) (p : Pocket) (g : Programme) (s : State), s.on = true → s.writer.op = .record t →
    t.req = ⟨p, .openCycle g true⟩ → t.slot < 96 → s.array.wf = true →
    ∃ u, exec (.recordAttemptDone .matched rail) s = .next (serve u) ∧
      u.slot t.slot = ⟨t.bytes, .sound⟩ ∧ (∀ i, i ≠ t.slot → u.slot i = s.slot i) ∧ u.writer.op = .idle ∧
      u.writer.protection.get p = ⟨some t.slot, some t.slot, t.stamp⟩ ∧
      u.writer.protection.get (otherPocket p) = s.writer.protection.get (otherPocket p) ∧
      u.tracker p = { s.tracker p with
        cycleStamp := t.stamp
        newestStamp := t.stamp
        periodic := if (s.tracker p).state.active then 0 else (s.tracker p).periodic
        context := (s.tracker p).context.map fun c => { c with source := t.stamp, cycleStamp := t.stamp } } ∧
      (∀ phase : LossPhase, (s.tracker p).state.lossPhase = some phase → s.discardsCheckpoint p .reemit = false →
        (∀ r ∈ s.writer.carried, r.1.closeOf p = false) →
        u.writer.queue = takeCheckpoint ⟨p, .checkpoint .reemit (s.progress p phase)⟩ s.writer.queue) ∧
      ((s.tracker p).state.lossPhase = none → u.writer.queue = s.writer.queue) ∧
      u.tracker (otherPocket p) = s.tracker (otherPocket p) ∧
      KeepsBut [.rail, .array, .writer, .trackers] s u) ∧
  (∀ (rail : Bool) (t : Attempt) (p : Pocket) (g : Programme) (r : LossReason) (s : State), s.on = true →
    s.writer.op = .record t → t.req = ⟨p, .openCycle g false⟩ → t.slot < 96 → s.array.wf = true →
    (s.tracker p).state = .opening → s.capturing = true → s.capture.ended = false → s.capture.reason = some r →
    s.frozen = true ∨ s.mains.state = .lost →
    let start : RunPhase := if g.coolLen < g.initialPaid then .heat else .cool
    let phase : LossPhase := if (s.tracker p).doorNote then .paused start else start.lossPhase
    let origin : Origin := if s.mains.state = .faltering then .provisional else .firm
    ∃ u, exec (.recordAttemptDone .matched rail) s = .next (serve u) ∧
      u.slot t.slot = ⟨t.bytes, .sound⟩ ∧ (∀ i, i ≠ t.slot → u.slot i = s.slot i) ∧ u.writer.op = .idle ∧
      ((s.stall p).running = false → u.stall p = ⟨true, 0, origin, 0⟩) ∧
      (∃ e ∈ u.capture.losses, e.pocket = p ∧ e.reason = r ∧ e.cycleStamp = t.stamp ∧ e.body.phase = phase ∧
        e.body.paid = g.initialPaid ∧ e.body.elapsed = 0 ∧ e.body.trips = 0 ∧ e.body.level = 0 ∧
        (s.mains.state = .lost →
          (u.tracker p).state = .pending ∧ u.pocketOff p ∧
          (u.tracker p).context = some ⟨t.stamp, t.stamp, phase, g.initialPaid, 0,
            if e.body.stale then none else some e.body.exhaust, e.body.inlet, 0, some g,
            if s.alwaysOn.marker then .timer else .unbounded, .none⟩) ∧
        (s.mains.state ≠ .lost →
          (u.tracker p).state.lossPhase = some phase ∧ u.frozen = true ∧
          (u.tracker p).snapshot = some ⟨e.body, some g, t.stamp⟩)) ∧
      (∀ k tag, s.link.inFlight = some ⟨k, tag, .opened p⟩ →
        u.link.inFlight = none ∧ replyFrame k tag .ok (byte start.lossPhase.code :: le32 t.stamp) ∈ u.link.frames) ∧
      u.tracker (otherPocket p) = s.tracker (otherPocket p) ∧
      KeepsBut [.rail, .array, .writer, .trackers, .schedules, .outputs, .arbiter, .alwaysOn, .link, .capture] s u)

/-- R110, R104, R115, R30 and R111, R112, R117: a CHECKPOINT or LOSS attempt ends. A match completes the record: its slot is the
pocket's newest, its stamp goes to the tracker and to a resume context (a checkpoint's too: log entry 13), and a capture that has not
ended (log entry 16) counts a LOSS. A mismatch retires the slot, makes a map write due, and leaves the record for its next attempt, or
unwritten after its fourth. -/
def Obligations.CheckpointAndLossAttemptsEnd : Prop :=
  ∀ (rail : Bool) (left : Left) (t : Attempt) (p : Pocket) (s : State), s.on = true → s.writer.op = .record t →
    t.req.pocket = p → t.slot < 96 → s.array.wf = true → t.req.data.isCheckpoint = true ∨ t.req.data.isLoss = true →
    (∃ u, exec (.recordAttemptDone .matched rail) s = .next (serve u) ∧
      u.slot t.slot = ⟨t.bytes, .sound⟩ ∧ (∀ i, i ≠ t.slot → u.slot i = s.slot i) ∧ u.writer.op = .idle ∧
      u.writer.protection.get p = { s.writer.protection.get p with newest := some t.slot } ∧
      (u.tracker p).state = (s.tracker p).state ∧ (u.tracker p).newestStamp = t.stamp ∧
      (u.tracker p).context = (s.tracker p).context.map (fun c => { c with source := t.stamp }) ∧
      u.capture.written = (if s.capturing ∧ s.capture.ended = false ∧ t.req.data.isLoss = true
        then min 255 (s.capture.written + 1) else s.capture.written) ∧
      u.tracker (otherPocket p) = s.tracker (otherPocket p) ∧
      KeepsBut [.rail, .array, .writer, .trackers, .capture] s u) ∧
    (∃ u, exec (.recordAttemptDone (.mismatched left) rail) s = .next (serve u) ∧
      (∀ i, i ≠ t.slot → u.slot i = s.slot i) ∧ u.writer.op = .idle ∧ u.writer.mapDue = .first ∧
      t.slot ∈ u.writer.retired ∧ (∀ i, i ≠ t.slot → (i ∈ u.writer.retired ↔ i ∈ s.writer.retired)) ∧
      (32 ≤ u.writer.retired.length → u.writer.worn = true) ∧ u.writer.protection = s.writer.protection ∧
      (t.retry < 3 → u.writer.carried = some (t.req, t.retry + 1) ∧ u.capture = s.capture) ∧
      (3 ≤ t.retry → u.writer.carried = s.writer.carried ∧
        u.capture.notWritten = (if t.req.data.isLoss then min 255 (s.capture.notWritten + 1) else s.capture.notWritten)) ∧
      u.trackers = s.trackers ∧ KeepsBut [.rail, .array, .writer, .scan, .scrub, .capture, .link] s u)

/-- R23, R92, R104, R110, R56: a CLOSE reads back as written. The pocket enters FREE with its cycle cleared and its loads off,
its protection is gone, its stall timer is stopped and cleared, the latch is cleared when LIM_x is intact, and a held reply is sent
with the figures of the record. -/
def Obligations.CloseRecordCompletes : Prop :=
  ∀ (rail : Bool) (t : Attempt) (p : Pocket) (r : CloseReason) (paid elapsed : Nat) (s : State), s.on = true →
    s.writer.op = .record t → t.req = ⟨p, .close r paid elapsed⟩ → t.slot < 96 → s.array.wf = true →
    ∃ u, exec (.recordAttemptDone .matched rail) s = .next (serve u) ∧
      u.slot t.slot = ⟨t.bytes, .sound⟩ ∧ (∀ i, i ≠ t.slot → u.slot i = s.slot i) ∧ u.writer.op = .idle ∧
      u.writer.protection.get p = ⟨none, none, 0⟩ ∧ (u.tracker p).state = .free ∧ (u.tracker p).programme = none ∧
      (u.tracker p).paid = 0 ∧ (u.tracker p).level = 0 ∧ (u.tracker p).trips = 0 ∧ (u.tracker p).context = none ∧
      (u.tracker p).snapshot = none ∧ (u.schedule p).elapsed = 0 ∧ u.pocketOff p ∧ u.alwaysOn.active.get p = false ∧
      u.stall p = ⟨false, 0, .firm, 0⟩ ∧ (u.output p).latch = ((s.output p).latch && (s.line p).limTripped) ∧
      (∀ k tag, s.link.inFlight = some ⟨k, tag, if r = .discard then .discarded p else .stopped p⟩ →
        u.link.inFlight = none ∧ replyFrame k tag .ok (le16 paid ++ le16 elapsed) ∈ u.link.frames) ∧
      u.tracker (otherPocket p) = s.tracker (otherPocket p) ∧
      KeepsBut [.rail, .array, .writer, .trackers, .schedules, .outputs, .arbiter, .alwaysOn, .capture, .link] s u

/-- R113, R114, R199: the map write and the settings write end. A match leaves the area holding what was written; a first
mismatch is followed by a second write; after a second mismatch the writer goes on, and the settings reply tells that the area
was not stored. The reply to a write whose prefix was partial is BAD_VALUE with the index of its first invalid pair. -/
def Obligations.AreaWritesEnd : Prop :=
  ∀ (back : ReadBack) (rail second : Bool) (s : State), s.on = true →
    (s.writer.op = .mapWrite second →
      ∃ u, exec (.mapWriteDone back rail) s = .next (serve u) ∧ u.writer.op = .idle ∧
        u.writer.retired = s.writer.retired ∧ u.array.slots = s.array.slots ∧ u.array.settings = s.array.settings ∧
        (back = .matched → u.array.map = ⟨s.writer.retired, .sound⟩ ∧ u.writer.mapDue = s.writer.mapDue) ∧
        (back ≠ .matched ∧ second = false → u.writer.mapDue = .second) ∧
        (back ≠ .matched ∧ second = true → u.writer.mapDue = s.writer.mapDue) ∧
        KeepsBut [.rail, .array, .writer] s u) ∧
    (∀ k tag n bad, s.writer.op = .settingsWrite second → s.link.inFlight = some ⟨k, tag, .settings n bad⟩ →
      let answer (stored : Byte) : TxFrame := match bad with
        | none => replyFrame k tag .ok [byte n, stored]
        | some i => replyFrame k tag .badValue [byte i]
      ∃ u, exec (.settingsWriteDone back rail) s = .next (serve u) ∧
        u.array.slots = s.array.slots ∧ u.array.map = s.array.map ∧ u.settings = s.settings ∧
        (back = .matched → u.array.settings = ⟨s.settings.wire, .sound⟩ ∧ u.writer.op = .idle ∧ u.defaulted = false ∧
          u.link.inFlight = none ∧ answer 1 ∈ u.link.frames) ∧
        (back ≠ .matched ∧ second = false → u.writer.op = .settingsWrite true ∧ u.defaulted = s.defaulted ∧
          u.link = s.link) ∧
        (back ≠ .matched ∧ second = true → u.writer.op = .idle ∧ u.defaulted = true ∧
          u.link.inFlight = none ∧ answer 0 ∈ u.link.frames) ∧
        KeepsBut [.rail, .array, .writer, .link, .defaulted] s u)

/-! ## The integrity of the journal (R123 to R142) -/

/-- R123, R142, R127, R128: an erase test starts and ends. The ERASED write into a slot found TORN raises the lost count at its
start. That the start drops the demand scrubs owed for the slot, and clears an unfinished erase that names it, is the model's choice
(log entry 17). A clean read-back leaves the
slot ERASED and counts a soft outcome, but for a duplicate that was read without a correction; an error counts a hard one, retires the
slot and makes a map write due. In phases PASS and RESOLVE of the scan the summary then records the slot as ERASED or RETIRED. -/
def Obligations.EraseTestEnds : Prop :=
  (∀ (o : JobOwner) (i : Nat) (f : Finding) (s : State), s.on = true → s.writer.op = .idle → s.writer.mapDue = .no →
    s.writer.job = some ⟨o, i, .erase f⟩ → s.writer.protects i = false → i ∉ s.writer.retired →
    s.scanning = true ∨ (s.capturing = false ∧ s.writer.carried = none) →
    (serve s).writer.op = .erase i f ∧
    (serve s).writer.lost = (if f = .torn then min 65535 (s.writer.lost + 1) else s.writer.lost) ∧
    (serve s).writer.soft = s.writer.soft ∧ (serve s).writer.hard = s.writer.hard ∧
    (∀ d ∈ (serve s).writer.demands, d.slot ≠ i) ∧ (serve s).scrub.unfinished ≠ some i ∧
    KeepsBut [.writer, .scrub, .link] s (serve s)) ∧
  (∀ (rail : Bool) (left : Left) (i : Nat) (f : Finding) (s : State), s.on = true →
    s.writer.op = .erase i f → i < 96 → s.array.wf = true →
    let noted (c : Condition) : List SlotNote := if s.scan.phase = .pass ∨ s.scan.phase = .resolve then
      s.scan.summary.map (fun n => if n.slot = i then ⟨i, c, [], false⟩ else n) else s.scan.summary
    (∃ u, exec (.eraseTestDone .matched rail) s = .next (serve u) ∧
      u.slot i = ⟨0x0E :: List.replicate 25 0, .sound⟩ ∧ (∀ k, k ≠ i → u.slot k = s.slot k) ∧ u.writer.op = .idle ∧
      u.writer.soft = (if f = .duplicate then s.writer.soft else min 65535 (s.writer.soft + 1)) ∧
      u.writer.hard = s.writer.hard ∧ u.writer.lost = s.writer.lost ∧ u.writer.retired = s.writer.retired ∧
      (i ∉ s.writer.retired → u.scan.summary = noted .erased) ∧ u.scan.phase = s.scan.phase ∧
      (s.scanning = false → u.scan = s.scan) ∧ KeepsBut [.rail, .array, .writer, .scan] s u) ∧
    (∃ u, exec (.eraseTestDone (.mismatched left) rail) s = .next (serve u) ∧
      (∀ k, k ≠ i → u.slot k = s.slot k) ∧ u.writer.op = .idle ∧ u.writer.hard = min 65535 (s.writer.hard + 1) ∧
      u.writer.soft = s.writer.soft ∧ i ∈ u.writer.retired ∧ u.writer.mapDue = .first ∧
      (32 ≤ u.writer.retired.length → u.writer.worn = true) ∧ u.scan.summary = noted .retired ∧
      u.scan.phase = s.scan.phase ∧ i ∉ u.scan.repairs ∧ KeepsBut [.rail, .array, .writer, .scan, .scrub, .link] s u))

/-- R124, R104: a relocation copy ends. A match leaves the copy in its target with the original's bytes, moves the protection from
the original to the copy, and makes the erase test of the original next; a mismatch retires the target and tries again, four
attempts in all. No stamp is taken. -/
def Obligations.RelocationCopyEnds : Prop :=
  ∀ (rail : Bool) (left : Left) (c : Copying) (j : Job) (s : State), s.on = true → s.writer.op = .copy c →
    s.writer.job = some j → c.target < 96 → s.array.wf = true →
    (∃ u, exec (.relocationCopyDone .matched rail) s = .next (serve u) ∧
      u.slot c.target = ⟨c.bytes, .sound⟩ ∧ (∀ k, k ≠ c.target → u.slot k = s.slot k) ∧ u.writer.op = .idle ∧
      u.writer.job = some { j with next := .eraseOriginal } ∧ u.writer.counter = s.writer.counter ∧
      (∀ p : Pocket,
        ((s.writer.protection.get p).newest = some c.original → (u.writer.protection.get p).newest = some c.target) ∧
        ((s.writer.protection.get p).newest ≠ some c.original →
          (u.writer.protection.get p).newest = (s.writer.protection.get p).newest) ∧
        ((s.writer.protection.get p).openSlot = some c.original → (u.writer.protection.get p).openSlot = some c.target) ∧
        ((s.writer.protection.get p).openSlot ≠ some c.original →
          (u.writer.protection.get p).openSlot = (s.writer.protection.get p).openSlot)) ∧
      KeepsBut [.rail, .array, .writer] s u) ∧
    (∃ u, exec (.relocationCopyDone (.mismatched left) rail) s = .next (serve u) ∧
      (∀ k, k ≠ c.target → u.slot k = s.slot k) ∧ u.writer.op = .idle ∧ c.target ∈ u.writer.retired ∧
      u.writer.mapDue = .first ∧ u.writer.protection = s.writer.protection ∧ u.writer.counter = s.writer.counter ∧
      u.writer.job = some { j with next := if 3 ≤ c.retry then .finish else .copy c.bytes (c.retry + 1) } ∧
      KeepsBut [.rail, .array, .writer, .scan, .scrub, .link] s u)

/-- R196, R125 to R134: the reads of a start and what the scan makes of them. The settings area, corrected or not, gives the
working table when it is consistent, or the defaults are kept and flagged; the map gives the retired set, is written again when it was
corrected, or is lost; a slot's read is noted, and leads to a repair when it was TORN or corrected. PASS records a RETIRED slot unread
and reads the next slot that is not; after slot 95 it enters RESOLVE with the list of every VALID slot that shares its stamp with a
VALID slot of a higher index, the cursor left at 96 by the model's choice (log entry 53). RESOLVE makes the erase test of each slot of
the list in turn. INDEX takes each pocket's record with the highest stamp and its cycle OPEN (log entry 41), and hands the protection,
the stamp counter and the cursor to the writer. REPAIR relocates the corrected records. At DONE each pocket whose newest record does
not end its cycle is PENDING with the record's context (log entry 47), its stall timer running, at the saturated count when it was
stopped, and any other stays FREE with its timer cleared; the journal is WORN by its retired count or its counter, and a return that
is owed is announced. -/
def Obligations.ScanReadsEnd : Prop :=
  (∀ s : State, s.on = true → s.array.wf = true →
    (s.writer.op = .settingsLoad →
      (∀ g : Settings, s.array.settings = ⟨g.wire, .sound⟩ → g.abandon % 10 = 0 →
        ∃ u v, exec (.settingsLoadDone .none) s = .next (serve u) ∧ exec (.settingsLoadDone .oneBit) s = .next (serve v) ∧
          (g.consistent = true → u.settings = g ∧ u.defaulted = false ∧ v.settings = g ∧ v.defaulted = false) ∧
          (g.consistent = false →
            u.settings = s.settings ∧ u.defaulted = true ∧ v.settings = s.settings ∧ v.defaulted = true) ∧
          u.writer.op = .scanMapRead ∧ u.scan.phase = .map ∧ KeepsBut [.settings, .defaulted, .writer, .scan] s u ∧
          v.writer.op = .scanMapRead ∧ v.scan.phase = .map ∧
          KeepsBut [.array, .settings, .defaulted, .writer, .scan] s v) ∧
      (∃ u, exec (.settingsLoadDone .twoBits) s = .next (serve u) ∧ u.settings = s.settings ∧ u.defaulted = true ∧
        u.writer.op = .scanMapRead ∧ u.scan.phase = .map ∧ KeepsBut [.array, .defaulted, .writer, .scan] s u)) ∧
    (s.writer.op = .scanMapRead →
      (s.array.map.integrity = .sound →
        ∃ u v, exec (.scanMapReadDone .none) s = .next (serve u) ∧ exec (.scanMapReadDone .oneBit) s = .next (serve v) ∧
          u.writer.retired = s.array.map.content ∧ u.writer.mapLost = false ∧ u.writer.mapDue = s.writer.mapDue ∧
          u.scan.phase = .pass ∧ KeepsBut [.writer, .scan] s u ∧
          v.writer.retired = s.array.map.content ∧ v.writer.mapLost = false ∧ v.writer.mapDue = .first ∧
          v.writer.op = .idle ∧ KeepsBut [.array, .writer] s v) ∧
      (∃ u, exec (.scanMapReadDone .twoBits) s = .next (serve u) ∧ u.writer.retired = [] ∧ u.writer.mapLost = true ∧
        u.scan.phase = .pass ∧ KeepsBut [.array, .writer, .scan] s u)) ∧
    (∀ k < 96, s.writer.op = .scanRead k →
      ∃ u v, exec (.scanSlotReadDone .none) s = .next (serve u) ∧ exec (.scanSlotReadDone .twoBits) s = .next (serve v) ∧
        u.writer.op = .idle ∧ u.scan.cursor = k + 1 ∧ u.scan.summary = s.scan.summary ++
          [⟨k, (readSlot (s.slot k)).condition,
            if (readSlot (s.slot k)).condition = .valid then (readSlot (s.slot k)).bytes else [],
            (readSlot (s.slot k)).corrected⟩] ∧
        ((readSlot (s.slot k)).condition = .valid ∧ (readSlot (s.slot k)).corrected = true →
          u.scan.repairs = s.scan.repairs ++ [k] ∧ u.writer.job = s.writer.job) ∧
        ((readSlot (s.slot k)).condition = .erased ∧ (readSlot (s.slot k)).corrected = true →
          u.scan.repairs = s.scan.repairs ∧ u.writer.job = some ⟨.scan, k, .erase .corrected⟩) ∧
        KeepsBut [.array, .writer, .scan] s u ∧ u.slot k = s.slot k ∧
        v.scan.summary = s.scan.summary ++ [⟨k, .torn, [], false⟩] ∧
        v.writer.job = some ⟨.scan, k, .erase .torn⟩ ∧ KeepsBut [.array, .writer, .scan] s v)) ∧
  (∀ s : State, s.writer.mapDue = .no → s.writer.job = none →
    let c := s.scan
    let valid (n : SlotNote) : Prop := n ∈ c.summary ∧ n.condition = .valid
    let newest (p : Pocket) (n : SlotNote) : Prop := valid n ∧ recPocket n.bytes = some p ∧
      ∀ m, valid m → recPocket m.bytes = some p → recStamp m.bytes ≤ recStamp n.bytes
    (∀ i : Nat, i ∈ c.duplicates ↔ ∃ n m, valid n ∧ valid m ∧ n.slot = i ∧ i < m.slot ∧ recStamp n.bytes = recStamp m.bytes) ∧
    (∀ p : Pocket,
      (∀ n, c.newestOf p = some n → newest p n ∧ ∀ m, c.openOf p n = some m → valid m ∧ recPocket m.bytes = some p ∧
        recKind m.bytes = some .openCycle ∧ recStamp m.bytes = recCycleStamp n.bytes ∧ (programmeOf m.bytes).isSome = true) ∧
      (∀ n, c.openOf p n = none → ∀ m, valid m → recPocket m.bytes = some p → recKind m.bytes = some .openCycle →
        recStamp m.bytes = recCycleStamp n.bytes → programmeOf m.bytes = none) ∧
      (c.newestOf p = none → ∀ m, valid m → recPocket m.bytes ≠ some p)) ∧
    (c.phase = .pass → ∀ k : Nat, c.cursor ≤ k → k ≤ 96 →
      (∀ j : Nat, c.cursor ≤ j → j < k → j ∈ s.writer.retired) →
      let noted : Scan :=
        { c with
          summary := c.summary ++ (List.range (k - c.cursor)).map (fun j => ⟨c.cursor + j, .retired, [], false⟩)
          cursor := k }
      (k < 96 → k ∉ s.writer.retired → ∃ t, scanNext s = some t ∧ t.scan = noted ∧
        t.writer = { s.writer with op := .scanRead k } ∧ KeepsBut [.writer, .scan] s t) ∧
      (k = 96 → ∃ t, scanNext s = some t ∧
        t.scan = { noted with
          phase := .resolve
          erasures := noted.duplicates } ∧
        KeepsBut [.scan] s t)) ∧
    (c.phase = .resolve →
      (∀ i rest, c.erasures = i :: rest → ∃ t, scanNext s = some t ∧ t.scan = { c with erasures := rest } ∧
        (∃ f, t.writer = { s.writer with job := some ⟨.scan, i, .erase f⟩ } ∧
          (f = if ∃ n, c.noteOf i = some n ∧ n.corrected = true then .corrected else .duplicate)) ∧
        KeepsBut [.writer, .scan] s t) ∧
      (c.erasures = [] → ∃ t, scanNext s = some t ∧ t.scan.phase = .repair ∧ t.scan.repairs = c.repairs ∧
        (∀ p : Pocket,
          (t.scan.index.get p).newest = (c.newestOf p).map (·.slot) ∧
          (∀ n, c.newestOf p = some n → (t.scan.index.get p).openSlot = (c.openOf p n).map (·.slot) ∧
            t.writer.protection.get p = if endsPending n.bytes
              then ⟨some n.slot, (c.openOf p n).map (·.slot), recCycleStamp n.bytes⟩ else ⟨none, none, 0⟩) ∧
          (c.newestOf p = none → t.writer.protection.get p = ⟨none, none, 0⟩)) ∧
        ((∀ n, ¬ valid n) → t.writer.counter = some 1 ∧ t.writer.cursor = 95) ∧
        (∀ n, valid n → (∀ m, valid m → recStamp m.bytes ≤ recStamp n.bytes) →
          (∀ m, valid m → recStamp m.bytes = recStamp n.bytes → m = n) →
          t.writer.counter = (if recStamp n.bytes < 4294967295 then some (recStamp n.bytes + 1) else none) ∧
          t.writer.cursor = n.slot) ∧
        KeepsBut [.writer, .scan] s t)) ∧
    (c.phase = .repair →
      (∀ i rest n, c.repairs = i :: rest → c.noteOf i = some n → scanNext s = some ((s.setScan { c with repairs := rest }).setWriter
        { s.writer with job := some ⟨.scan, i, .copy n.bytes 0⟩ })) ∧
      (c.repairs = [] → ∃ t, scanNext s = some t ∧ t.scanning = false ∧ t.scan.summary = [] ∧
        (∀ p : Pocket,
          let programme : Option Programme := ((c.index.get p).openSlot.bind c.noteOf).bind fun m => programmeOf m.bytes
          (∀ n, (c.index.get p).newest.bind c.noteOf = some n → endsPending n.bytes = true →
            (t.tracker p).state = .pending ∧ (t.tracker p).newestStamp = recStamp n.bytes ∧
            (t.tracker p).context
              = some (recordContext n.bytes programme (if s.alwaysOn.marker then .timer else .unbounded)) ∧
            t.alwaysOn.active.get p = true ∧
            t.stall p = (if (s.stall p).running then s.stall p else ⟨true, 1048575, .firm, 0⟩)) ∧
          ((∀ n, (c.index.get p).newest.bind c.noteOf = some n → endsPending n.bytes = false) →
            t.tracker p = s.tracker p ∧ t.alwaysOn.active.get p = false ∧ t.stall p = ⟨false, 0, .firm, 0⟩)) ∧
        t.writer = { s.writer with
          worn := decide (32 ≤ s.writer.retired.length) || s.writer.counter.isNone } ∧
        t.mains.returnOwed = (s.mains.returnOwed && s.mains.state != .present) ∧
        KeepsBut [.trackers, .schedules, .outputs, .arbiter, .alwaysOn, .writer, .scan, .mains] s t)))

/-- R120, R121, R137 to R139, R26: the reads of a read-out and of the scrub end, with no decay or as TORN. The frame of the slot
carries what the read found, a demand scrub is owed with it, a scrub step goes on to its repair, and a TORN slot loses its protection
before anything is written: an active pocket that lost its cycle OPEN emits it again, and one that lost its newest record alone asks
for a REEMIT checkpoint. A step that comes due is asked for. -/
def Obligations.ReadoutAndScrubReadsEnd : Prop :=
  ∀ (rail : Bool) (i : Nat) (s : State), s.on = true → i < 96 → s.array.wf = true →
    let emitsAgain (v : State) : Prop := ∀ p : Pocket,
      let q := s.writer.protection.get p
      let reemits : Prop := q.openSlot = some i ∧ (s.tracker p).state.active = true ∧ s.capturing = false
      (∀ g, (s.tracker p).programme = some g → reemits → ⟨p, .openCycle g true⟩ ∈ v.writer.queue) ∧
      (∀ phase, q.openSlot ≠ some i → q.newest = some i → (s.tracker p).state.lossPhase = some phase →
        s.discardsCheckpoint p .reemit = false → (s.writer.carried.map (·.1)).all (!·.closeOf p) = true →
        ⟨p, .checkpoint .reemit (s.progress p phase)⟩ ∈ v.writer.queue) ∧
      (q.newest ≠ some i → q.openSlot ≠ some i → v.tracker p = s.tracker p ∧
        (∀ r : Request, r.pocket = p → (r ∈ v.writer.queue ↔ r ∈ s.writer.queue)))
    (∀ t : Stream, s.writer.op = .readoutRead i true → s.link.stream = some t →
      ∃ u v, exec (.readoutReadDone .none rail) s = .next (serve u) ∧
        exec (.readoutReadDone .twoBits rail) s = .next (serve v) ∧ u.writer.op = .idle ∧
        u.link = s.link.push ⟨0x8B, t.tag,
          [0, byte t.flag, byte t.cursor, byte (readSlot (s.slot i)).condition.code,
            if (readSlot (s.slot i)).corrected then 1 else 0] ++ (readSlot (s.slot i)).bytes,
          true, (readSlot (s.slot i)).demand i, false⟩ ∧
        v.link = s.link.push ⟨0x8B, t.tag, [0, byte t.flag, byte t.cursor, 2, 0] ++ List.replicate 26 0, true,
          some ⟨i, .torn, true⟩, false⟩ ∧
        v.writer.protects i = false ∧ emitsAgain v ∧ (∀ k, k ≠ i → v.slot k = s.slot k) ∧ u.slot i = s.slot i ∧
        KeepsBut [.rail, .array, .writer, .trackers, .link] s u ∧
        KeepsBut [.rail, .array, .writer, .trackers, .link] s v) ∧
    (∀ j : Job, s.writer.op = .scrubRead i → s.writer.job = some j →
      ∃ u v, exec (.scrubReadDone .none rail) s = .next (serve u) ∧
        exec (.scrubReadDone .twoBits rail) s = .next (serve v) ∧ u.writer.op = .idle ∧ u.slot i = s.slot i ∧
        ((readSlot (s.slot i)).condition = .valid ∧ (readSlot (s.slot i)).corrected = true →
          u.writer.job = some { j with next := .copy (readSlot (s.slot i)).bytes 0 }) ∧
        ((readSlot (s.slot i)).condition = .erased ∧ (readSlot (s.slot i)).corrected = true →
          u.writer.job = some { j with next := .erase .corrected }) ∧
        ((readSlot (s.slot i)).condition ≠ .torn ∧ (readSlot (s.slot i)).corrected = false →
          u.writer.job = some { j with next := .finish }) ∧
        v.writer.job = some { j with next := .erase .torn } ∧ v.writer.protects i = false ∧ emitsAgain v ∧
        KeepsBut [.rail, .array, .writer, .trackers] s u ∧ KeepsBut [.rail, .array, .writer, .trackers] s v) ∧
    (s.mains.state = .present → s.scanning = false →
      exec .scrubStepDue s = .next (serve (s.setScrub { s.scrub with timer := 2000, asked := true })))

/-! ## Resume planning (R156 to R175) -/

/-- R159, R160: the estimated load temperature. The excess, its halvings and the interpolation between them, the values they lie
between, and the temperature between the inlet and the exhaust used, which every plan reports with the decayed excess beside
it, in the reply and in the ADOPT record alike. A context without a programme, which is ORPHAN, has no decay. -/
def Obligations.LoadTemperatureEstimate : Prop :=
  ∀ (g : Settings) (c : Context) (stall : Option Nat),
    let used : Int := c.exhaustUsed
    let left := c.decayedExcess g stall
    ((c.excess : Int) = if c.inlet < used then used - c.inlet else 0) ∧
    (-10 ≤ c.inlet ∧ used ≤ 150 → c.excess ≤ 160) ∧
    (c.programme = none → left = c.excess) ∧
    (∀ m : Programme, c.programme = some m → 0 < g.halving m.loadClass →
      let half := g.halving m.loadClass
      (stall = none → left = 0) ∧
      (∀ s k r : Nat, stall = some s → s = k * half + r → r < half →
        let e := c.excess / 2 ^ k
        (8 ≤ k → left = 0) ∧
        (k < 8 → left = e - e * r / (2 * half) ∧ (0 < e → e / 2 + 1 ≤ left) ∧ left ≤ e ∧
          (-10 ≤ c.inlet ∧ used ≤ 150 ∧ half ≤ 3600 → e * r < 576000))) ∧
      (stall = some 0 → left = c.excess) ∧ (stall = some half → left = c.excess / 2)) ∧
    (∀ p : Plan, p = planFor g c stall →
      p.loadTemp = c.inlet + left ∧ p.decayed = left ∧
      c.inlet ≤ p.loadTemp ∧ p.loadTemp ≤ max c.inlet used ∧
      (used ≤ c.inlet → c.excess = 0 ∧ p.loadTemp = c.inlet) ∧
      (-10 ≤ c.inlet ∧ c.inlet ≤ 60 ∧ used ≤ 150 → -10 ≤ p.loadTemp ∧ p.loadTemp ≤ 150 ∧
        ((planFields p).getD 2 0).toNat = p.loadTemp + 10 ∧ ((planFields p).getD 3 0).toNat = left ∧
        ∀ (exhaust : Option Nat) (inlet : Int) (trips : Nat) (latched : Bool),
          (((adoptionBody p exhaust inlet trips latched).getD 15 0).toNat : Int) = p.loadTemp + 10))

/-- R161 to R165: the plan of each context, and what no plan does. A HEAT context resumes heat with the re-warm credit unless its
stall is unbounded or above ABANDON; a COOL one resumes its remainder, rounded up, or else goes on to ANTICREASE or to the end; an
ANTICREASE one goes on where the schedule would stand; a paused one stays paused; a marked one is held. A plan above P is a
RESUME_HEAT, within the credit cap and 21600 s, and a longer stall never leaves the load warmer. -/
def Obligations.PlanFigures : Prop :=
  ∀ (g : Settings) (c : Context) (stall : Option Nat), c.paid ≤ 21600 →
    let l := planFor g c stall
    let held (k : PlanKind) (r : HeldReason) : Prop :=
      l.kind = k ∧ l.phase = some (.held r) ∧ l.paid = c.paid ∧ l.credit = 0 ∧ l.position = c.elapsed ∧ l.recovery = false
    (l.stall = stall ∧ l.source = c.source ∧ l.paid ≤ 21600 ∧ (c.paid < l.paid → l.kind = .resumeHeat)) ∧
    (c.mark = .orphan → held .holdOrphan .orphan) ∧ (c.mark = .faultAtLoss → held .holdFault .faultAtLoss) ∧
    (∀ m : Programme, c.mark = .none → c.programme = some m →
      (c.phase = .heat →
        (stall = none → held .holdStale .stale) ∧
        (∀ s : Nat, stall = some s →
          (g.abandon < s → held .holdStale .stale) ∧
          (s ≤ g.abandon →
            l.kind = .resumeHeat ∧ l.position = c.elapsed ∧ l.recovery = false ∧
            l.paid = min 21600 (c.paid + min g.creditCap ((m.setpoint - l.loadTemp).toNat * g.rewarmRate)) ∧
            l.credit = l.paid - c.paid ∧ l.credit ≤ g.creditCap))) ∧
      (c.phase = .cool →
        ∃ left : Nat, (c.excess = 0 → left = 0) ∧
          (0 < c.excess → c.paid * l.decayed ≤ left * c.excess ∧ left * c.excess < c.paid * l.decayed + c.excess) ∧
          left ≤ c.paid ∧ l.credit = 0 ∧ l.recovery = false ∧
          (0 < left → l.kind = .resumeCool ∧ l.phase = some .cool ∧ l.paid = left) ∧
          (left = 0 ∧ 0 < m.limit →
            l.kind = .resumeAnticrease ∧ l.phase = some .anticrease ∧ l.paid = 0 ∧ l.position = 0) ∧
          (left = 0 ∧ m.limit = 0 →
            l.kind = .finish ∧ l.phase = none ∧ l.close = .anticreaseNone ∧ l.paid = 0 ∧ l.position = 0)) ∧
      (c.phase = .anticrease →
        l.paid = 0 ∧ l.credit = 0 ∧
        (stall = none ∨ (∃ s, stall = some s ∧ m.limit ≤ c.elapsed + s) →
          l.kind = .finish ∧ l.phase = none ∧ l.close = .limitEnd ∧ l.position = m.limit ∧ l.recovery = false) ∧
        (∀ s : Nat, stall = some s → c.elapsed + s < m.limit →
          l.kind = .resumeAnticrease ∧ l.phase = some .anticrease ∧ l.position = c.elapsed + s ∧
          (l.recovery = true ↔ m.period ≤ s ∧ 0 < m.tumble))) ∧
      (∀ r : RunPhase, c.phase = .paused r →
        l.kind = .resumePaused ∧ l.phase = some (.paused (if m.coolLen < c.paid then .heat else .cool)) ∧
        l.paid = c.paid ∧ l.credit = 0 ∧ l.position = c.elapsed ∧ l.recovery = false)) ∧
    (∀ (m : Programme) (s longer : Nat), c.programme = some m → 0 < g.halving m.loadClass → s ≤ longer →
      c.decayedExcess g (some longer) ≤ c.decayedExcess g (some s))

/-- R167, R173, R93, R157: PLAN_QUERY of a PENDING pocket sends the figures of its plan and does nothing else. The stall of the
computation is the timer's count when the marker is valid and the timer runs below its saturated count, and unbounded otherwise, as it
is for a context whose source is UNBOUNDED. PLAN_DISCARD takes the pocket to CLOSING with a CLOSE of the context's figures, ends its
guard tumble and holds the reply. Each is refused in another state. -/
def Obligations.PlanQueryAndDiscard : Prop :=
  ∀ (tag : Byte) (p : Pocket) (s : State), s.takesMessages = true → (s.tracker p).state.busy = false →
    ((s.tracker p).state ≠ .pending →
      ∀ c k, (c, k) ∈ [(Instr.planQuery tag (pocketIndex p), (0x08 : Byte)), (.planAdopt tag (pocketIndex p), 0x09),
          (.planDiscard tag (pocketIndex p), 0x0A)] →
        exec c s = .next (serve ((s.sensedBy c).heard.setLink (s.heard.link.push (replyFrame k tag .wrongState []))))) ∧
    (∀ c : Context, s.planStall p c =
      if c.stallSource = .timer ∧ s.alwaysOn.marker = true ∧ (s.stall p).running = true ∧ (s.stall p).count < 1048575
        then some (s.stall p).count else none) ∧
    (∀ c : Context, (s.tracker p).state = .pending → (s.tracker p).context = some c →
      exec (.planQuery tag (pocketIndex p)) s = .next (serve (s.heard.setLink (s.heard.link.push
        (replyFrame 0x08 tag .ok (planFields (planFor s.settings c (s.planStall p c))))))) ∧
      ∃ u, exec (.planDiscard tag (pocketIndex p)) s = .next (serve u) ∧
        (u.tracker p).state = .closing .discard ∧ (u.tracker p).context = some c ∧ (u.output p).guard = none ∧
        u.pocketOff p ∧ u.alwaysOn.active.get p = false ∧ u.stall p = s.stall p ∧
        u.writer.queue = takeClose ⟨p, .close .discard c.paid c.elapsed⟩ s.writer.queue ∧
        u.link.inFlight = some ⟨0x0A, tag, .discarded p⟩ ∧
        u.tracker (otherPocket p) = s.tracker (otherPocket p) ∧
        KeepsBut [.silence, .trackers, .schedules, .outputs, .arbiter, .alwaysOn, .writer, .link, .capture,
          .rail, .railAsks] s u)

/-- R168: PLAN_ADOPT of a PENDING pocket is refused while a loss is in progress. Otherwise the figures of the moment are fixed in
an ADOPT request, the pocket enters ADOPTING with its context and its stall timer as they were and its guard tumble ended, and the
reply is held. -/
def Obligations.PlanAdoptAccepted : Prop :=
  ∀ (tag : Byte) (p : Pocket) (c : Context) (s : State), s.takesMessages = true → (s.tracker p).state = .pending →
    (s.tracker p).context = some c →
    (s.lossInProgress = true → exec (.planAdopt tag (pocketIndex p)) s
      = .next (serve (s.heard.setLink (s.heard.link.push (replyFrame 0x09 tag .busy []))))) ∧
    (s.lossInProgress = false →
      ∃ u, exec (.planAdopt tag (pocketIndex p)) s = .next (serve u) ∧
        (u.tracker p).state = .adopting ∧ (u.tracker p).context = some c ∧ (u.output p).guard = none ∧
        u.pocketOff p ∧ u.alwaysOn.active.get p = true ∧ u.stall p = s.stall p ∧
        u.writer.queue = s.writer.queue ++ [⟨p, .adopt (planFor s.settings c (s.planStall p c)) c.exhaust c.inlet c.trips
          (s.output p).latch⟩] ∧
        u.link.inFlight = some ⟨0x09, tag, .adopted p⟩ ∧
        u.tracker (otherPocket p) = s.tracker (otherPocket p) ∧
        KeepsBut [.silence, .trackers, .schedules, .outputs, .arbiter, .alwaysOn, .writer, .link] s u)

/-- R169, R170, R104, R43: an ADOPT reads back as written, the clocks running and the mains not LOST (so in QUALIFYING too: log entry
34). The slot is the pocket's newest, the stall timer is cleared, the cycle comes back from the context with the plan's figures, also
without a programme when the context is ORPHAN, the state is the plan's, or PAUSED, closing or a hold without a tumble when the door is
open, and the reply carries the figures. A RESUME_ANTICREASE plan sets the next boundary, and a tumble is due at entry with the
recovery mark or at a boundary above 0. R171, R144, R146, R28, R90: one that completes in a capture while the clocks are frozen or the
mains is LOST meets the loss: the stall timer starts again from 0, and a LOSS entry with the adopted figures joins the list. With the
mains LOST the pocket is PENDING at once, with a context of the same figures whose source stamp is the ADOPT's, and otherwise it is
active with its snapshot; the reply is sent all the same. A FINISH plan, and a RESUME_ANTICREASE plan with the door open, close the
pocket in a loss as without one, the model's choice (log entry 39). -/
def Obligations.AdoptRecordCompletes : Prop :=
  (∀ (rail : Bool) (t : Attempt) (p : Pocket) (l : Plan) (exhaust : Option Nat) (inlet : Int) (trips : Nat) (latched : Bool)
      (c : Context) (s : State), s.on = true → s.writer.op = .record t →
      t.req = ⟨p, .adopt l exhaust inlet trips latched⟩ → t.slot < 96 → s.array.wf = true →
      (s.tracker p).state = .adopting → (s.tracker p).context = some c → (c.programme = none → l.kind = .holdOrphan) →
      (s.frozen = false ∧ s.mains.state ≠ .lost ∨ l.kind = .finish ∨
        l.kind = .resumeAnticrease ∧ (s.line p).doorOpen = true) →
      let opened := (s.line p).doorOpen
      let running (r : RunPhase) : PocketState := if opened then .paused r else r.state
      let byPaid : RunPhase := if (match c.programme with | some g => g.coolLen | none => 0) < l.paid then .heat else .cool
      ∃ u, exec (.recordAttemptDone .matched rail) s = .next (serve u) ∧
        u.slot t.slot = ⟨t.bytes, .sound⟩ ∧ (∀ i, i ≠ t.slot → u.slot i = s.slot i) ∧ u.writer.op = .idle ∧
        (u.writer.protection.get p).newest = some t.slot ∧
        (u.writer.protection.get p).openSlot = (s.writer.protection.get p).openSlot ∧
        (u.tracker p).state = (match l.kind with
          | .resumeHeat => running byPaid
          | .resumeCool => running .cool
          | .resumeAnticrease => if opened then .closing .door else .anticrease
          | .resumePaused => .paused byPaid
          | .holdStale => .held .stale
          | .holdOrphan => .held .orphan
          | .holdFault => .held .faultAtLoss
          | .finish => .closing l.close) ∧
        ((∃ r, (u.tracker p).state = .held r) → (u.tracker p).held = if opened then none else some 0) ∧
        (u.tracker p).programme = c.programme ∧ (u.tracker p).cycleStamp = c.cycleStamp ∧ (u.tracker p).newestStamp = t.stamp ∧
        (u.tracker p).paid = l.paid ∧ (u.tracker p).paidAcc = 0 ∧ (u.tracker p).trips = c.trips ∧ (u.tracker p).level = 0 ∧
        (u.tracker p).periodic = 0 ∧ (u.tracker p).context = none ∧ u.stall p = ⟨false, 0, .firm, 0⟩ ∧
        (u.schedule p).elapsed = (if l.kind = .resumeHeat ∨ l.kind = .resumeCool then 0 else l.position) ∧
        (∀ g : Programme, c.programme = some g → l.kind = .resumeAnticrease → opened = false → 0 < g.period →
          (u.schedule p).acc = 0 ∧ (u.schedule p).skipped = 0 ∧
          (∃ k b : Nat, (u.schedule p).boundary = some b ∧ b = k * g.period ∧ l.position < b ∧ b ≤ l.position + g.period) ∧
          ((u.schedule p).tumble = .rest ↔
            g.tumble = 0 ∨ l.position = 0 ∨ (l.recovery = false ∧ l.position % g.period ≠ 0))) ∧
        u.alwaysOn.active.get p = (u.tracker p).state.flagged ∧
        u.writer.queue = (if l.kind = .finish then takeClose ⟨p, .close l.close 0 l.position⟩ s.writer.queue
          else if l.kind = .resumeAnticrease ∧ opened = true then takeClose ⟨p, .close .door 0 l.position⟩ s.writer.queue
          else s.writer.queue) ∧
        (∀ k tag, s.link.inFlight = some ⟨k, tag, .adopted p⟩ →
          u.link.inFlight = none ∧ replyFrame k tag .ok (planFields l) ∈ u.link.frames) ∧
        u.tracker (otherPocket p) = s.tracker (otherPocket p) ∧
        KeepsBut [.rail, .array, .writer, .trackers, .schedules, .outputs, .arbiter, .alwaysOn, .link, .capture] s u) ∧
  (∀ (rail : Bool) (t : Attempt) (p : Pocket) (l : Plan) (exhaust : Option Nat) (inlet : Int) (trips : Nat) (latched : Bool)
    (c : Context) (r : LossReason) (s : State), s.on = true → s.writer.op = .record t →
    t.req = ⟨p, .adopt l exhaust inlet trips latched⟩ → t.slot < 96 → s.array.wf = true →
    (s.tracker p).state = .adopting → (s.tracker p).context = some c → (c.programme = none → l.kind = .holdOrphan) →
    l.kind ≠ .finish → (l.kind = .resumeAnticrease → (s.line p).doorOpen = false) →
    s.capturing = true → s.capture.ended = false → s.capture.reason = some r →
    s.frozen = true ∨ s.mains.state = .lost →
    ∃ u, exec (.recordAttemptDone .matched rail) s = .next (serve u) ∧
      u.slot t.slot = ⟨t.bytes, .sound⟩ ∧ (∀ i, i ≠ t.slot → u.slot i = s.slot i) ∧ u.writer.op = .idle ∧
      u.stall p = ⟨true, 0, if s.mains.state = .faltering then .provisional else .firm, 0⟩ ∧
      (∃ e ∈ u.capture.losses, e.pocket = p ∧ e.reason = r ∧ e.cycleStamp = c.cycleStamp ∧ e.body.paid = l.paid ∧
        e.body.elapsed = (if l.kind = .resumeHeat ∨ l.kind = .resumeCool then 0 else l.position) ∧
        e.body.trips = c.trips ∧ e.body.level = 0 ∧
        (s.mains.state = .lost →
          (u.tracker p).state = .pending ∧ u.pocketOff p ∧
          (u.tracker p).context = some ⟨t.stamp, c.cycleStamp, e.body.phase, l.paid, e.body.elapsed,
            if e.body.stale then none else some e.body.exhaust, e.body.inlet, c.trips, c.programme,
            if s.alwaysOn.marker then .timer else .unbounded, markFor c.programme e.body.phase⟩) ∧
        (s.mains.state ≠ .lost →
          (u.tracker p).state.lossPhase = some e.body.phase ∧ (u.tracker p).paid = l.paid ∧ u.frozen = true ∧
          (u.tracker p).snapshot = some ⟨e.body, c.programme, c.cycleStamp⟩)) ∧
      (∀ q : Pocket, q ≠ p → ∀ e, e.pocket = q → (e ∈ u.capture.losses ↔ e ∈ s.capture.losses)) ∧
      (∀ k tag, s.link.inFlight = some ⟨k, tag, .adopted p⟩ →
        u.link.inFlight = none ∧ replyFrame k tag .ok (planFields l) ∈ u.link.frames) ∧
      u.tracker (otherPocket p) = s.tracker (otherPocket p) ∧
      KeepsBut [.rail, .array, .writer, .trackers, .schedules, .outputs, .arbiter, .alwaysOn, .link, .capture] s u)

/-! ## The serial link (R176 to R194) -/

/-- R183, R184, R61: admission and dispatch. A frame that finds two replies waiting is an OVERRUN and does nothing else. Any other
restarts the silence timer with the SILENCE of that moment. It is answered BUSY while the scan runs, STATUS apart, and while a
message is in flight; an unknown KIND and a LEN that does not fit are told apart after that. -/
def Obligations.AdmissionAndDispatch : Prop :=
  ∀ s : State, s.on = true →
    (∀ (c : Instr) (k g : Byte), messageFields c = some (k, g) →
      (2 ≤ s.link.waitingReplies → exec c s = .next (serve ((s.sensedBy c).setLink { s.link with
        counters := { s.link.counters with overrun := min 255 (s.link.counters.overrun + 1) } }))) ∧
      (s.link.waitingReplies < 2 → (s.scanning = true ∧ k ≠ 0x01) ∨ s.link.inFlight.isSome = true →
        exec c s = .next (serve ((validFrame (s.sensedBy c)).setLink (s.link.push (replyFrame k g .busy []))))) ∧
      (s.link.waitingReplies < 2 → ∃ t, exec c s = .next t ∧ t.silence = ⟨true, some (1000 * s.settings.silence), false⟩)) ∧
    (∀ (k g : Byte) (payload : List Byte), s.takesMessages = true →
      (contentOf k payload = .unknownKind ↔ k.toNat = 0 ∨ 14 < k.toNat) ∧
      (contentOf k payload = .unknownKind →
        frameArrives k g payload s = s.heard.setLink (s.heard.link.push (replyFrame k g .unknownKind []))) ∧
      (contentOf k payload = .badLength →
        frameArrives k g payload s = s.heard.setLink (s.heard.link.push (replyFrame k g .badLength []))))

/-- R178 to R180, R184, R189 (decode and encode agree): the bytes of a frame spell its message again, and, received in LEAD, they
do what the message itself does with the receiver back in HUNT: no field of any message is lost on the line. The bytes of any frame
that keeps its LEN and its CHECK pass the receive checks and are admitted and dispatched, and an admitted one restarts the silence
timer (R61). That a message is a command of its own, and that the bytes arrive together, is the model's choice (log entries 1 and 22). -/
def Obligations.MessageFramesArrive : Prop :=
  let back (s : State) : State := s.setLink { s.link with
    receiver := .hunt
    buffer := []
    check := 0xFFFF }
  (∀ (m : Message) (tag : Byte), m.wf = true →
    contentOf m.kind m.payload = .message m ∧ (frameBytes m.kind tag m.payload).length = 6 + m.payload.length ∧
    m.payload.length ≤ 56 ∧
    ∀ s : State, s.on = true → s.link.receiver = .lead →
      exec (.frameReceived (frameBytes m.kind tag m.payload)) s
        = exec (m.command tag) (back (if sensesRail (m.command tag) then s else senseRail s))) ∧
  (∀ (k tag : Byte) (payload : List Byte) (s : State), payload.length ≤ 56 → s.on = true → s.link.receiver = .lead →
    exec (.frameReceived (frameBytes k tag payload)) s = .next (serve (frameArrives k tag payload (back (senseRail s)))) ∧
    ∃ t, exec (.frameReceived (frameBytes k tag payload)) s = .next t ∧ t.link.receiver = .hunt ∧ t.link.buffer = [] ∧
      t.link.check = 0xFFFF ∧ t.pending = s.pending ∧
      (2 ≤ s.link.waitingReplies → t.link.counters.overrun = min 255 (s.link.counters.overrun + 1)) ∧
      (s.link.waitingReplies < 2 → t.silence = ⟨true, some (1000 * s.settings.silence), false⟩))

/-- R182, R177, R181, R183: the six link error counters: raised by one at each error of their kind, up to 255, 0 at every start,
and cleared once a STATUS reply with OK holds their values; one answered BUSY clears nothing. An error empties the buffer and takes the
receiver to HUNT, whichever state of a frame it is found in (log entry 22); a break opens a new frame in every receiver state and cuts
one short; and between frames there is no error to find (log entry 3). -/
def Obligations.LineEventsAndErrorCounters : Prop :=
  ∀ s : State, s.on = true →
    let c := s.link.counters
    let up (n : Nat) : Nat := min 255 (n + 1)
    let standing (v : State) (r : Receiver) (d : Counters) : State := v.setLink { s.link with
      receiver := r
      buffer := []
      check := 0xFFFF
      counters := d }
    let now := standing s
    let sensed := standing (senseRail s)
    let inFrame : Prop := s.link.receiver = .lead ∨ s.link.receiver = .header ∨ s.link.receiver = .body
    let cut : Prop := s.link.receiver = .header ∨ s.link.receiver = .body
    (inFrame →
      exec (.receiveErrorFound .framing) s = .next (serve (now .hunt { c with framing := up c.framing })) ∧
      exec (.receiveErrorFound .length) s = .next (serve (now .hunt { c with length := up c.length })) ∧
      exec (.receiveErrorFound .lead) s = .next (serve (now .hunt { c with lead := up c.lead })) ∧
      exec .gapTimeout s = .next (serve (now .hunt { c with gap := up c.gap }))) ∧
    (¬ inFrame → exec .gapTimeout s = .next (serve s) ∧ ∀ e, exec (.receiveErrorFound e) s = .next (serve s)) ∧
    (cut → exec (.breakDetected []) s = .next (serve (sensed .breaking { c with gap := up c.gap }))) ∧
    (¬ cut → exec (.breakDetected []) s = .next (serve (sensed .breaking c))) ∧
    (s.link.receiver = .hunt → ∀ bytes : List Byte,
      exec (.frameReceived bytes) s = .next (serve (senseRail s)) ∧
      exec (.breakDetected bytes) s = .next (serve (sensed .breaking c))) ∧
    (s.link.receiver = .lead → ∀ b : Byte, exec (.breakDetected [b]) s = .next (serve
      (sensed .breaking (if b = 0xB4 then { c with gap := up c.gap } else { c with lead := up c.lead })))) ∧
    (s.link.receiver = .breaking → exec .breakEnd s = .next (serve (now .lead c))) ∧
    (s.link.receiver ≠ .breaking → exec .breakEnd s = .next (serve s)) ∧
    (∀ (k g lo hi : Byte) (payload : List Byte), s.link.receiver = .body → payload.length ≤ 56 →
      s.link.buffer = [k, g, byte payload.length] ++ payload ++ [lo] →
      s.link.check.toNat ≠ lo.toNat + 256 * hi.toNat →
      exec (.frameReceived [hi]) s = .next (serve (sensed .hunt { c with check := up c.check }))) ∧
    (∀ (m : Instr) (k g : Byte), messageFields m = some (k, g) → 2 ≤ s.link.waitingReplies →
      exec m s = .next (serve ((s.sensedBy m).setLink { s.link with counters := { c with overrun := up c.overrun } }))) ∧
    (∀ tag : Byte, s.admits = true →
      (s.link.inFlight = none →
        ∃ u, exec (.status tag) s = .next (serve u) ∧ u.link.counters = ⟨0, 0, 0, 0, 0, 0⟩ ∧
          ∃ f ∈ u.link.frames, f.kind = 0x81 ∧ f.tag = tag ∧ f.payload.head? = some 0 ∧
            (f.payload.drop 14).take 6
              = [byte c.framing, byte c.check, byte c.gap, byte c.length, byte c.lead, byte c.overrun]) ∧
      (s.link.inFlight ≠ none → ∃ u, exec (.status tag) s = .next (serve u) ∧ u.link.counters = c)) ∧
    (∀ cause : StartCause, (startMain cause s).link.counters = ⟨0, 0, 0, 0, 0, 0⟩)

/-- R190, R191, R192, R93, R119, R197: the messages that only read. STATUS, served during the scan too, sends its 48 bytes of payload,
each field by its table, as the state stands, and clears the error counters and start causes it has reported; that a saturated running
timer of a pocket that is neither PENDING nor ADOPTING is reported as unbounded is the model's choice (log entry 24). SETTINGS_READ
sends the working table; JOURNAL_READ checks its slots and starts a stream, or is refused by value, before it is refused while a
capture is in progress (log entry 30). -/
def Obligations.ReadingMessages : Prop :=
  ∀ (tag : Byte) (s : State),
    (s.admits = true → s.link.inFlight = none →
      (∀ silent : Bool, (s.statusFields silent).length = 47 ∧
        let flag (n : Nat) (b : Bool) : Nat := if b then n else 0
        let o := s.alwaysOn
        let mains : Byte := match s.mains.state with
          | .present => 0 | .sag => 1 | .faltering => 2 | .lost => 3 | .qualifying => 4
        let held : HeldReason → Byte
          | .limit => 1 | .airflow => 2 | .stale => 3 | .orphan => 4 | .faultAtLoss => 5
        let closing : CloseReason → Byte
          | .door => 1 | .limitEnd => 2 | .anticreaseNone => 3 | .stop => 4 | .discard => 5
        let marked (p : Pocket) : Byte := match (s.tracker p).context with
          | none => 0
          | some c => match c.mark with | .none => 0 | .orphan => 1 | .faultAtLoss => 2
        let named (p : Pocket) : List Byte := match (s.tracker p).state with
          | .free => [0, 0] | .opening => [1, 0] | .heat => [2, 0] | .cool => [3, 0] | .anticrease => [4, 0]
          | .paused .heat => [5, 1] | .paused .cool => [5, 2] | .pending => [6, marked p] | .adopting => [7, marked p]
          | .held r => [8, held r] | .closing r => [9, closing r]
        let shown (p : Pocket) : Option Context :=
          if (s.tracker p).state = .pending ∨ (s.tracker p).state = .adopting then (s.tracker p).context else none
        let waits (p : Pocket) : Bool := (s.tracker p).state = .pending || (s.tracker p).state = .adopting
        let stalled (p : Pocket) : List Byte :=
          if waits p then
            (if o.marker ∧ (s.stall p).running ∧ (s.stall p).count < 1048575 then le24 (s.stall p).count
              else [0xFF, 0xFF, 0xFF])
          else if (s.stall p).running then
            (if (s.stall p).count < 1048575 then le24 (s.stall p).count else [0xFF, 0xFF, 0xFF])
          else [0, 0, 0]
        let pocket (p : Pocket) : List Byte := named p
          ++ le16 (match shown p with | some c => c.paid | none => (s.tracker p).paid)
          ++ le16 (match shown p with | some c => c.elapsed | none => (s.schedule p).elapsed)
          ++ [if waits p then 0 else byte (s.tracker p).level,
            byte (flag 1 (s.output p).motor + flag 2 (s.output p).stage1 + flag 4 (s.output p).stage2
              + flag 8 (s.output p).latch + flag 16 (waits p)),
            byte (match shown p with | some c => c.trips | none => (s.tracker p).trips)]
          ++ stalled p ++ le16 (s.schedule p).skipped
        s.statusFields silent =
          [1, mains, if o.marker = false then 0 else if o.reserve = .ready then 1 else 2,
            byte ((if s.scanning then 2 else flag 1 s.writer.worn) + flag 4 s.writer.mapLost), byte s.writer.retired.length]
          ++ le16 s.writer.soft ++ le16 s.writer.hard ++ le16 s.writer.lost
          ++ [byte (flag 1 s.defaulted + flag 2 silent),
            byte (flag 1 o.causes.cold + flag 2 o.causes.ret + flag 4 o.causes.pin + flag 8 o.causes.restart),
            byte s.link.counters.framing, byte s.link.counters.check, byte s.link.counters.gap,
            byte s.link.counters.length, byte s.link.counters.lead, byte s.link.counters.overrun]
          ++ pocket .a ++ pocket .b) ∧
      exec (.status tag) s = .next (serve ((s.heard.setLink
        { s.heard.link.push (replyFrame 0x01 tag .ok (s.statusFields s.silence.silent)) with
          counters := ⟨0, 0, 0, 0, 0, 0⟩ }).setAlwaysOn
        { s.alwaysOn with causes := ⟨false, false, false, false⟩ }))) ∧
    (s.takesMessages = true →
      (s.settings.wire.flatMap le16).length = 44 ∧
      exec (.settingsRead tag) s = .next (serve (s.heard.setLink
        (s.heard.link.push (replyFrame 0x0C tag .ok (s.settings.wire.flatMap le16)))))) ∧
    (∀ first count : Nat, s.takesMessages = true →
      let answered (r : Result) (data : List Byte) : Prop := exec (.journalRead tag first count) s
        = .next (serve (s.heard.setLink (s.heard.link.push (replyFrame 0x0B tag r data))))
      let fits : Prop := first < 96 ∧ 1 ≤ count ∧ count ≤ 96 ∧ first + count ≤ 96
      (96 ≤ first → answered .badValue [0]) ∧ (first < 96 ∧ ¬ fits → answered .badValue [1]) ∧
      (fits → s.capturing = true → answered .busy []) ∧
      (fits → s.capturing = false →
        exec (.journalRead tag first count) s = .next (serve ((s.heard.setLink
          { s.heard.link with stream := some ⟨tag, first, count, count⟩ }).setWriter
          { s.heard.writer with readAsked := some first }))))

/-- R183, R188, R154: the frame on TXD has left. The oldest waiting frame follows; a frame of a stream brings the next read until the
count is 0, and the demand scrub it found is owed; the RESTART reply brings a start of kind RESTART, every block in its starting state
(log entries 21 and 23 for what the manual leaves open there, and log entry 40 for the latch of a tripped LIM_x, which is set inside
the start event: the model's choice). With no frame on TXD the row does nothing (log entry 3). -/
def Obligations.SentFramesGoOn : Prop :=
  ∀ s : State, s.on = true →
    (s.link.sending = none → exec .frameSent s = .next (serve s)) ∧
    (∀ f : TxFrame, s.link.sending = some f →
      let k : Link := { s.link with
        sending := s.link.waiting.head?
        waiting := s.link.waiting.tail }
      (f.restart = true → ∃ t, exec .frameSent s = .next (serve t) ∧ s.startedFrom .restart t ∧ t.supply = s.supply) ∧
      (f.restart = false → f.stream = false → f.demand = none → exec .frameSent s = .next (serve (s.setLink k))) ∧
      (∀ t : Stream, f.restart = false → f.stream = true → s.link.stream = some t →
        ∃ u, exec .frameSent s = .next (serve u) ∧
          u.link = { k with stream := if t.left ≤ 1 then none else some ⟨t.tag, t.cursor + 1, t.total, t.left - 1⟩ } ∧
          u.writer = { s.writer with
            readAsked := if t.left ≤ 1 then s.writer.readAsked else some (t.cursor + 1)
            demands := s.writer.demands ++ (f.demand.map fun d => ⟨d.slot, d.finding, decide (1 < t.left)⟩).toList } ∧
          KeepsBut [.link, .writer] s u))

/-- R198, R195, R189: SETTINGS_WRITE is refused by its length, by a pocket that is not FREE, by a waiting or captured writer and by
its first pair, in that order. A pair is valid when its key code is 1 to 22 and the trial table after it is consistent, and the prefix
ends at the first that is not. The valid prefix is applied at once, the table stays consistent, the settings write is asked for and the
reply is held with the prefix's length and the first invalid index. -/
def Obligations.SettingsWriteTakesThePrefix : Prop :=
  ∀ (tag : Byte) (pairs : List (Nat × Nat)) (s : State), s.takesMessages = true →
    let answered (r : Result) (data : List Byte) : Prop := exec (.settingsWrite tag pairs) s
      = .next (serve (s.heard.setLink (s.heard.link.push (replyFrame 0x0D tag r data))))
    let fits : Prop := 1 ≤ pairs.length ∧ pairs.length ≤ 18
    let free : Prop := ∀ p : Pocket, (s.tracker p).state = .free
    let calm : Prop := s.writer.queue = [] ∧ s.capturing = false
    (∀ (g : Settings) (n : Nat) (bad : Option Nat), trySettings s.settings 0 pairs = (g, n, bad) →
      let trial (k : Nat) : Settings :=
        settingsOf ((pairs.take k).foldl (fun v kv => v.set (kv.1 - 1) kv.2) s.settings.wire)
      (∀ i < n, ∃ kv, pairs[i]? = some kv ∧ 1 ≤ kv.1 ∧ kv.1 ≤ 22 ∧ (trial (i + 1)).consistent = true) ∧
      n ≤ pairs.length ∧ (0 < n → g = trial n) ∧
      (∀ kv, pairs[n]? = some kv → bad = some n ∧ (kv.1 < 1 ∨ 22 < kv.1 ∨ (trial (n + 1)).consistent = false)) ∧
      (pairs[n]? = none → bad = none)) ∧
    (¬ fits → answered .badLength []) ∧ (fits → ¬ free → answered .wrongState []) ∧
    (fits → free → ¬ calm → answered .busy []) ∧
    (fits → free → calm → (trySettings s.settings 0 pairs).2.1 = 0 → answered .badValue [0]) ∧
    (∀ (g : Settings) (n : Nat) (bad : Option Nat), fits → free → calm →
      trySettings s.settings 0 pairs = (g, n + 1, bad) →
      g.consistent = true ∧ n + 1 ≤ pairs.length ∧ (bad = if n + 1 < pairs.length then some (n + 1) else none) ∧
      g.wire = (pairs.take (n + 1)).foldl (fun v kv => v.set (kv.1 - 1) kv.2) s.settings.wire ∧
      ∃ u, exec (.settingsWrite tag pairs) s = .next (serve u) ∧ u.settings = g ∧
        u.link.inFlight = some ⟨0x0D, tag, .settings (n + 1) bad⟩ ∧ u.link.frames = s.heard.link.frames ∧
        u.writer.settingsAsked = true ∧ u.writer.queue = [] ∧ KeepsBut [.silence, .writer, .link, .settings] s u)

/-! ## Restart, reset and the supplies (R145, R150, R153, R155, R200, R201) -/

/-- R153, R143, R145, R147, R148, R151, R154: an accepted RESTART freezes the clocks, takes the snapshots, makes every stall timer
FIRM and starts those of the active pockets, and begins a capture with reason RESTART, its counts at 0 (log entry 26), the outputs as
they are; a capture that stands or has stopped ends at once with the reply, in its state until the reset (log entry 16). The beginning
of any capture keeps the CLOSE entries of the queue alone, and answers a dropped OPEN or ADOPT with ABORTED. A capture writes the
carried record, after its map write, then the oldest CLOSE, with which a queued CHECKPOINT of its pocket is dropped (R108; log entry
14), then the first LOSS, and any other map write last (log entry 36). A write that the holdup test refuses stops it: the LOSS entries
are dropped and counted, the carried record goes back to the head of the queue (a LOSS counts: log entry 15). With no write left it
stands while the window is open. One whose window is closed returns to NONE, and one that carries the restart note ends with the reply.
The close of the window ends one that stands or has stopped. -/
def Obligations.RestartAndTheQueue : Prop :=
  ∀ (tag : Byte) (s : State),
    (s.takesMessages = true → s.capturing = false →
      (∀ r ∈ s.writer.queue, r.data.isCheckpoint = true ∨ r.data.isClose = true) →
      ∃ u, exec (.restart tag) s = .next (serve u) ∧ u.frozen = true ∧ u.link.inFlight = some ⟨0x0E, tag, .restart⟩ ∧
        u.capture.state = .finishing ∧ u.capture.reason = some .restart ∧ u.capture.window = true ∧
        u.capture.restart = true ∧ u.capture.written = 0 ∧ u.capture.notWritten = 0 ∧ u.capture.ended = false ∧
        u.writer.queue = s.writer.queue.filter (·.data.isClose) ∧
        (∀ (p : Pocket) (phase : LossPhase), (s.tracker p).state.lossPhase = some phase →
          (u.stall p = if (s.stall p).running then { s.stall p with origin := .firm } else ⟨true, 0, .firm, 0⟩) ∧
          ((s.tracker p).snapshot = none →
            u.tracker p = { s.tracker p with
              snapshot := some ⟨s.progress p phase, (s.tracker p).programme, (s.tracker p).cycleStamp⟩ } ∧
            ⟨p, .restart, (s.tracker p).cycleStamp, s.progress p phase⟩ ∈ u.capture.losses)) ∧
        (∀ p : Pocket, (s.tracker p).state.lossPhase = none →
          u.tracker p = s.tracker p ∧ u.stall p = { s.stall p with origin := .firm }) ∧
        KeepsBut [.silence, .frozen, .trackers, .alwaysOn, .capture, .writer, .link, .rail, .railAsks] s u) ∧
    (s.takesMessages = true → s.capture.state = .standing ∨ s.capture.state = .stopped →
      ∃ u, exec (.restart tag) s = .next (serve u) ∧ u.frozen = true ∧ u.link.inFlight = none ∧
        { replyFrame 0x0E tag .ok [byte s.capture.written, byte s.capture.notWritten] with restart := true }
          ∈ u.link.frames ∧
        u.capture.state = s.capture.state ∧ u.capture.ended = true ∧ u.capture.restart = true ∧
        KeepsBut [.silence, .frozen, .trackers, .alwaysOn, .capture, .writer, .link, .rail, .railAsks] s u) ∧
    (∀ reason : LossReason,
      (beginCapture reason s).writer.queue = s.writer.queue.filter (·.data.isClose) ∧
      (∀ (p : Pocket) (k : Byte) (x : Request), x ∈ s.writer.queue → x.pocket = p →
        (∀ r ∈ s.writer.queue, r.pocket = p → r = x ∨ r.data.exclusive = false) →
        (∀ g, x.data = .openCycle g false → s.link.inFlight = some ⟨k, tag, .opened p⟩ →
          ((beginCapture reason s).tracker p).state = .free ∧ (beginCapture reason s).link.inFlight = none ∧
          replyFrame k tag .aborted [] ∈ (beginCapture reason s).link.frames) ∧
        (∀ l e i n b, x.data = .adopt l e i n b → s.link.inFlight = some ⟨k, tag, .adopted p⟩ →
          ((beginCapture reason s).tracker p).state = .pending ∧
          ((beginCapture reason s).tracker p).context = (s.tracker p).context ∧
          (beginCapture reason s).link.inFlight = none ∧
          replyFrame k tag .aborted [] ∈ (beginCapture reason s).link.frames))) ∧
    (s.writer.job = none → s.writer.op = .idle →
      let w := s.writer
      let t := captureNext s
      let writes : Prop := w.mapDue ≠ .no ∨ w.carried ≠ none ∨ (∃ r ∈ w.queue, r.data.isClose = true) ∨ s.capture.losses ≠ []
      let attempts (r : Request) (k n i : Nat) : Prop :=
        t.writer.op = .record ⟨r, k, n, i, r.bytes n (w.protection.get r.pocket).cycleStamp⟩ ∧ t.capture.state = .writing
      (s.rail = true →
        (w.mapDue ≠ .no → w.carried ≠ none ∨ ¬ (∃ r ∈ w.queue, r.data.isClose = true) ∧ s.capture.losses = [] →
          t.writer = { w with op := .mapWrite (decide (w.mapDue = .second)), mapDue := .no } ∧
          t.capture = { s.capture with state := .writing }) ∧
        (∀ n i, w.counter = some n → w.target none = some i →
          (∀ r k, w.carried = some (r, k) → w.mapDue = .no →
            attempts r k n i ∧ t.writer.carried = none ∧ t.writer.queue = w.queue ∧ t.capture.losses = s.capture.losses) ∧
          (∀ r earlier later, w.carried = none → w.queue = earlier ++ r :: later → r.data.isClose = true →
            (∀ q ∈ earlier, q.data.isClose = false) →
            attempts r 0 n i ∧
            t.writer.queue = (earlier ++ later).filter (!·.checkpointOf r.pocket) ∧ t.capture.losses = s.capture.losses ∧
            t.writer.mapDue = w.mapDue) ∧
          (∀ e rest, w.carried = none → (∀ q ∈ w.queue, q.data.isClose = false) → s.capture.losses = e :: rest →
            attempts ⟨e.pocket, .loss e.reason e.body⟩ 0 n i ∧ t.writer.queue = w.queue ∧ t.capture.losses = rest ∧
            t.writer.mapDue = w.mapDue))) ∧
      (writes → s.rail = false → ∃ dropped : Nat,
        (dropped = s.capture.losses.length + (if ∃ c ∈ w.carried, c.1.data.isLoss = true then 1 else 0)) ∧
        t.capture = (if s.capture.restart = true ∨ s.capture.window = true then
          { s.capture with
            state := .stopped
            losses := []
            notWritten := min 255 (s.capture.notWritten + dropped)
            ended := s.capture.ended || s.capture.restart }
          else Capture.start) ∧
        t.writer.op = .idle ∧ t.writer.carried = none ∧ t.writer.mapDue = w.mapDue ∧
        (∀ r k, w.carried = some (r, k) → r.data.isLoss = false →
          (r.data.isCheckpoint = true ∧ (∃ q ∈ w.queue, q.checkpointOf r.pocket = true) → t.writer.queue = w.queue) ∧
          (¬ (r.data.isCheckpoint = true ∧ ∃ q ∈ w.queue, q.checkpointOf r.pocket = true) →
            t.writer.queue = r :: w.queue)) ∧
        ((∀ c ∈ w.carried, c.1.data.isLoss = true) → t.writer.queue = w.queue)) ∧
      (¬ writes → t.writer = w ∧ t.capture = if s.capture.restart
        then { s.capture with
          state := .standing
          ended := true }
        else if s.capture.window then { s.capture with state := .standing } else Capture.start) ∧
      (∀ k : Byte, s.capture.restart = true → s.link.inFlight = some ⟨k, tag, .restart⟩ → ¬ writes ∨ s.rail = false →
        t.link.inFlight = none ∧
        { replyFrame k tag .ok [byte t.capture.written, byte t.capture.notWritten] with restart := true }
          ∈ t.link.frames)) ∧
    ((closeWindow s).capture = if s.capture.state = .standing ∨ s.capture.state = .stopped then Capture.start
        else { s.capture with window := false })

/-- R150, R155, R200, R201, R90, R194: the supplies and RESET_N. A collapse and an assertion stop the main domain at once, tear the
write in flight, a torn map write leaving the map failing its check, and turn everything off; the assertion starts the timers of the
flagged pockets FIRM. A power-up and a release start it, each with its kind, unless the other condition still holds it; the marker
decides the kind as it stands at the start, after a floor loss of R95 too, the model's choice (log entry 51). The blocks of a stopped
domain stand in their starting state (log entry 25), the rail follows the supply (log entry 6), and the writer's values and the latch
of a tripped LIM_x at a start, and what a COLD start clears, are log entries 23, 40 and 21. -/
def Obligations.SupplyAndResetEvents : Prop :=
  ∀ (torn : Left) (s : State),
    let stopped (t : State) : Prop :=
      t.on = false ∧ (∀ p : Pocket, t.pocketOff p ∧ (t.tracker p).state = .free) ∧ t.link = Link.start ∧
      t.writer = Writer.start ∧ t.capture = Capture.start ∧ t.settings = Settings.default ∧ t.lines = s.lines ∧
      t.pending = s.pending ∧ (s.writer.op = .idle → t.array = s.array) ∧
      (∀ second : Bool, s.writer.op = .mapWrite second →
        t.array = { s.array with map := ⟨s.array.map.content, .unreadable⟩ }) ∧
      (∀ a : Attempt, s.writer.op = .record a → a.slot < 96 → s.array.wf = true →
        t.slot a.slot = (match torn with
          | .old => s.slot a.slot
          | .new => ⟨a.bytes, .sound⟩
          | .pattern => ⟨(s.slot a.slot).content, .unreadable⟩) ∧
        (∀ i, i ≠ a.slot → t.slot i = s.slot i) ∧ t.array.map = s.array.map ∧ t.array.settings = s.array.settings)
    (s.supply.powered = true →
      ∃ t, exec (.holdupCollapse torn) s = .next t ∧ t.supply = ⟨false, s.supply.resetHeld⟩ ∧ t.rail = false ∧ stopped t ∧
        t.alwaysOn = s.alwaysOn) ∧
    (s.supply.resetHeld = false →
      ∃ t, exec (.resetNAssert torn) s = .next t ∧ t.supply = ⟨s.supply.powered, true⟩ ∧ t.rail = s.rail ∧ stopped t ∧
        t.alwaysOn.active = s.alwaysOn.active ∧ t.alwaysOn.marker = s.alwaysOn.marker ∧
        t.alwaysOn.causes = s.alwaysOn.causes ∧ t.alwaysOn.reserve = s.alwaysOn.reserve ∧
        ∀ p : Pocket, t.stall p = if s.alwaysOn.active.get p then
          (if (s.stall p).running then { s.stall p with origin := .firm } else ⟨true, 0, .firm, 0⟩) else s.stall p) ∧
    (s.supply.powered = false →
      ∃ t, exec .mainSupplyPowerUp s = .next t ∧ t.supply = ⟨true, s.supply.resetHeld⟩ ∧ t.rail = true ∧
        (s.supply.resetHeld = false → s.startedFrom .supply t) ∧
        (s.supply.resetHeld = true → KeepsBut [.supply, .rail] s t)) ∧
    (s.supply.resetHeld = true →
      ∃ t, exec .resetNRelease s = .next t ∧ t.supply = ⟨s.supply.powered, false⟩ ∧ t.rail = s.rail ∧
        (s.supply.powered = true → s.startedFrom .pin t) ∧ (s.supply.powered = false → KeepsBut [.supply] s t))

/-! ## The whole part -/

/-- The step takes the command at the front of the queue and runs it with the rest; no command waiting, a millisecond passes (the
model's choice: log entry 2), at whose beginning the rail is read (a free value: log entry 6). In it every counter and timer that runs
advances by a millisecond: the ages, the paid and anti-crease accumulators and the periodic counts (R9, R14, R25, R33), the paid
accumulator only while P is above 0 (the model's choice: log entry 37), the proving counts, airflow, cooling and guard timers (R52, R53,
R58, R59), the silence, stagger, sag and scrub timers (R61, R68, R82, R137) and the stall timers (R89), each by a phase of its own
against one period from 953 to 1052 ms (the model's choice: log entry 11). Then each that has reached its limit does, in one order, what
the row of that limit does, and no other does anything. -/
def Obligations.StepRunsTheFrontCommand : Prop :=
  ∀ s : State, (∀ (c : Instr) (rest : List Instr), s.pending = c :: rest → step s = exec c (s.setPending rest)) ∧
    (s.pending = [] → step s = .next (tick s)) ∧
    (∀ t v : State, t = tickAlwaysOn s → v = s.passed →
      (∀ p : Pocket, t.stall p =
        if (s.stall p).running = false then s.stall p
        else if (s.stall p).phase + 1 < Config.stallPeriodMs then { s.stall p with phase := (s.stall p).phase + 1 }
        else { s.stall p with count := min 1048575 ((s.stall p).count + 1), phase := 0 }) ∧
      953 ≤ Config.stallPeriodMs ∧ Config.stallPeriodMs ≤ 1052 ∧
      t.alwaysOn = { s.alwaysOn with timers := t.alwaysOn.timers } ∧ KeepsBut [.alwaysOn] s t ∧
      tick s = (if s.on then serve (limits (senseRail t).passed) else t) ∧
      (∀ p : Pocket,
        let running : Prop := ((s.tracker p).state = .heat ∨ (s.tracker p).state = .cool) ∧ (s.output p).motor = true
        v.tracker p = { s.tracker p with
          age := min 65535000 ((s.tracker p).age + 1)
          paidAcc := (s.tracker p).paidAcc + (if running ∧ s.frozen = false ∧ 0 < (s.tracker p).paid then 1 else 0)
          periodic := (s.tracker p).periodic + (if (s.tracker p).state.lossPhase ≠ none ∧ s.frozen = false then 1 else 0)
          held := (s.tracker p).held.map (· + 1) } ∧
        v.schedule p = { s.schedule p with
          acc := (s.schedule p).acc + (if (s.tracker p).state = .anticrease ∧ s.frozen = false then 1 else 0) } ∧
        v.output p = { s.output p with
          proving := (s.output p).proving + (if (s.output p).airflow = .proving then 1 else 0)
          airTimer := (s.output p).airTimer + (if (s.output p).airflow = .timing then 1 else 0)
          guard := (s.output p).guard.map (· + 1) }) ∧
      v.silence = { s.silence with left := s.silence.left.map (· - 1) } ∧
      v.arbiter = { s.arbiter with stagger := s.arbiter.stagger.map (· + 1) } ∧
      v.mains = { s.mains with sag := s.mains.sag.map (· + 1) } ∧
      v.scrub = { s.scrub with timer := s.scrub.timer +
        (if s.mains.state = .present ∧ s.scanning = false ∧ s.scrub.timer < 2000 then 1 else 0) } ∧
      KeepsBut [.trackers, .schedules, .outputs, .silence, .arbiter, .mains, .scrub] s v) ∧
    (limits s = scrubLimit (sagLimit (staggerLimit (silenceLimit (pocketLimits .b (pocketLimits .a s))))) ∧
      ∀ p : Pocket, pocketLimits p s
        = guardLimit p (heldLimit p (airLimit p (periodicLimit p (elapsedLimit p (paidLimit p s)))))) ∧
    (s.on = true →
      let acts (due : Prop) (c : Instr) (u : State) : Prop :=
        (due → exec c s = .next (serve u)) ∧ (¬ due → u = s)
      (∀ p : Pocket,
        acts (s.paidCounts p = true ∧ 0 < (s.tracker p).paid ∧ 1000 ≤ (s.tracker p).paidAcc) (.paidSecond p)
          (paidLimit p s) ∧
        acts (s.elapsedCounts p = true ∧ 1000 ≤ (s.schedule p).acc) (.anticreaseSecond p) (elapsedLimit p s) ∧
        acts (s.periodicCounts p = true ∧ 1000 * s.settings.ckptInterval ≤ (s.tracker p).periodic) (.periodicCheckpoint p)
          (periodicLimit p s) ∧
        ((s.output p).airflow ≠ .timing →
          acts ((s.output p).airflow = .proving ∧ 3000 ≤ (s.output p).proving) (.airflowProven p) (airLimit p s)) ∧
        ((s.output p).airflow = .timing →
          acts (30000 ≤ (s.output p).airTimer) (.airflowFault p) (airLimit p s)) ∧
        acts (∃ n, (s.tracker p).held = some n ∧ 1000 * s.settings.guardLimit ≤ n) (.heldTumbleEnd p) (heldLimit p s) ∧
        acts (∃ n, (s.output p).guard = some n ∧ 1000 * s.settings.guardLimit ≤ n) (.guardTumbleEnd p)
          (guardLimit p s)) ∧
      acts (s.silence.left = some 0) .silenceExpiry (silenceLimit s) ∧
      acts (∃ n, s.arbiter.stagger = some n ∧ 1000 * s.settings.stagger ≤ n) .staggerElapsed (staggerLimit s) ∧
      (s.mains.state = .sag →
        acts (∃ n, s.mains.sag = some n ∧ 1000 * s.settings.sagLossS ≤ n) (.sagLoss s.rail) (sagLimit s)) ∧
      acts (2000 ≤ s.scrub.timer) .scrubStepDue (scrubLimit s))

/-- Every command answers a next state in every state and leaves the command queue as it found it: no ordinary data ends a run.
An event that cannot arise answers the state as it is (log entry 3), and a state that no run reaches stops nothing (log entry 35). -/
def Obligations.EveryCommandAnswersNext : Prop :=
  ∀ (c : Instr) (s : State), ∃ t, exec c s = .next t ∧ t.pending = s.pending

/-- R98: from every state whose array is in its canonical form (each slot listed once, in rising order, below 96, none as
delivered), so it is after a step: no operation writes a slot that the array does not have. R107, R108: so it is with the bound of the
record requests: no step queues a second CHECKPOINT of a pocket or a second OPEN, ADOPT or CLOSE, and but for re-emitted OPENs (log
entry 48) the queue holds at most four. A CHECKPOINT takes the place of a queued one, or the tail, and is discarded behind a CLOSE or
inside the loss window; a CLOSE takes the place of a queued re-emitted OPEN, no CHECKPOINT behind it (log entry 14), or the tail. -/
def Obligations.StepKeepsTheArrayForm : Prop :=
  (∀ s t : State, s.array.wf = true → step s = .next t → t.array.wf = true) ∧
  (∀ s t : State, s.recordsFit → step s = .next t → t.recordsFit) ∧
  (∀ s : State, s.recordsFit → (s.writer.queue.filter (!·.data.isReemit)).length ≤ 4) ∧
  (∀ (new : Request) (earlier later : List Request),
    (¬ (∃ r ∈ earlier, r.checkpointOf new.pocket = true) →
      (∀ old, old.checkpointOf new.pocket = true →
        takeCheckpoint new (earlier ++ old :: later) = earlier ++ new :: later) ∧
      takeCheckpoint new earlier = earlier ++ [new]) ∧
    (¬ (∃ r ∈ earlier, r.reemitOf new.pocket = true) →
      takeClose new earlier = earlier ++ [new] ∧
      (∀ old, new.data.isClose = true → (∀ r ∈ earlier, r.closeOf new.pocket = false) → old.reemitOf new.pocket = true →
        takeClose new (earlier ++ old :: later) = earlier ++ new :: later.filter (!·.checkpointOf new.pocket)))) ∧
  (∀ (p : Pocket) (r : CheckpointReason) (b : Progress) (s : State),
    (s.discardsCheckpoint p r = true ↔
      (∃ q ∈ s.writer.queue, q.closeOf p = true) ∨ (∃ a, s.writer.op = .record a ∧ a.req.closeOf p = true) ∨
      ((∀ a, s.writer.op ≠ .record a) ∧ ∃ c ∈ s.writer.carried, c.1.closeOf p = true) ∨
      (s.capture.window = true ∧ r ≠ .rideThrough)) ∧
    ((enqueue ⟨p, .checkpoint r b⟩ s).writer.queue = if s.discardsCheckpoint p r then s.writer.queue
      else takeCheckpoint ⟨p, .checkpoint r b⟩ s.writer.queue) ∧
    ∀ d : RecordData, ((enqueue ⟨p, d⟩ s).tracker p).periodic = 0 ∧
      (d.isClose = true → (enqueue ⟨p, d⟩ s).writer.queue = takeClose ⟨p, d⟩ s.writer.queue) ∧
      (d.isClose = false → d.isCheckpoint = false → (enqueue ⟨p, d⟩ s).writer.queue
        = if s.capturing then s.writer.queue else s.writer.queue ++ [⟨p, d⟩]))

/-- R1, R46, R64, R80, R98, R136, R142, R143, R193, R195, R196: after the first start the invariants hold and every block stands at the
value its rules give. The levels of the inputs and of the supplies are the model's choice (log entry 7). -/
def Obligations.ResetMeetsTheInvariants : Prop :=
  let s := State.reset
  s.loadsAgree ∧ s.guarded ∧ s.recordsFit ∧ s.array.wf = true ∧ s.budgeted ∧
    (∀ p : Pocket, s.pocketOff p ∧ (s.tracker p).state = .free ∧ (s.stall p).running = false ∧ (s.output p).airflow = .off) ∧
    s.mains.state = .qualifying ∧ s.mains.returnOwed = true ∧ s.alwaysOn.marker = false ∧
    s.alwaysOn.reserveState = .charging ∧ s.writer.op = .settingsLoad ∧ s.writer.queue = [] ∧ s.capture.state = .none ∧
    s.scrub.cursor = 0 ∧ s.link.receiver = .hunt ∧ s.link.frames = [] ∧ s.silence.armed = false ∧ s.pending = [] ∧
    (∀ i < 96, (s.slot i).content.head? = some 0x0E ∧ (s.slot i).integrity = .sound) ∧
    s.array.settings.content = s.settings.wire
end

