-- ==== Sys2Proof/Laws/State.lean ====
section
/-! SUPPORT. One lemma per field per update of the state, true by rfl, and the reads of one pocket's value after an update
of it. -/

namespace Sys2Proof.Machine

variable (s : State) (p : Pocket)

/-! ## One value per pocket -/

@[simp] theorem Pair.get_a {α : Type} (v : Pair α) : v.get .a = v.a := rfl
@[simp] theorem Pair.get_b {α : Type} (v : Pair α) : v.get .b = v.b := rfl
@[simp] theorem Pair.get_set {α : Type} (v : Pair α) (p : Pocket) (x : α) : (v.set p x).get p = x := by cases p <;> rfl
@[simp] theorem Pair.get_modify {α : Type} (v : Pair α) (p : Pocket) (f : α → α) : (v.modify p f).get p = f (v.get p) := by
  cases p <;> rfl

theorem Pair.get_set_ne {α : Type} (v : Pair α) {p q : Pocket} (x : α) (h : q ≠ p) : (v.set p x).get q = v.get q := by
  cases p <;> cases q <;> first | rfl | exact absurd rfl h

theorem Pair.get_modify_ne {α : Type} (v : Pair α) {p q : Pocket} (f : α → α) (h : q ≠ p) :
    (v.modify p f).get q = v.get q := Pair.get_set_ne v _ h

/-! ## pending -/

@[simp] theorem State.setPending_pending (v : List Instr) : (s.setPending v).pending = v := rfl
@[simp] theorem State.setPending_supply (v : List Instr) : (s.setPending v).supply = s.supply := rfl
@[simp] theorem State.setPending_lines (v : List Instr) : (s.setPending v).lines = s.lines := rfl
@[simp] theorem State.setPending_rail (v : List Instr) : (s.setPending v).rail = s.rail := rfl
@[simp] theorem State.setPending_railAsks (v : List Instr) : (s.setPending v).railAsks = s.railAsks := rfl
@[simp] theorem State.setPending_trackers (v : List Instr) : (s.setPending v).trackers = s.trackers := rfl
@[simp] theorem State.setPending_frozen (v : List Instr) : (s.setPending v).frozen = s.frozen := rfl
@[simp] theorem State.setPending_schedules (v : List Instr) : (s.setPending v).schedules = s.schedules := rfl
@[simp] theorem State.setPending_outputs (v : List Instr) : (s.setPending v).outputs = s.outputs := rfl
@[simp] theorem State.setPending_silence (v : List Instr) : (s.setPending v).silence = s.silence := rfl
@[simp] theorem State.setPending_arbiter (v : List Instr) : (s.setPending v).arbiter = s.arbiter := rfl
@[simp] theorem State.setPending_mains (v : List Instr) : (s.setPending v).mains = s.mains := rfl
@[simp] theorem State.setPending_alwaysOn (v : List Instr) : (s.setPending v).alwaysOn = s.alwaysOn := rfl
@[simp] theorem State.setPending_array (v : List Instr) : (s.setPending v).array = s.array := rfl
@[simp] theorem State.setPending_writer (v : List Instr) : (s.setPending v).writer = s.writer := rfl
@[simp] theorem State.setPending_capture (v : List Instr) : (s.setPending v).capture = s.capture := rfl
@[simp] theorem State.setPending_scan (v : List Instr) : (s.setPending v).scan = s.scan := rfl
@[simp] theorem State.setPending_scrub (v : List Instr) : (s.setPending v).scrub = s.scrub := rfl
@[simp] theorem State.setPending_link (v : List Instr) : (s.setPending v).link = s.link := rfl
@[simp] theorem State.setPending_settings (v : List Instr) : (s.setPending v).settings = s.settings := rfl
@[simp] theorem State.setPending_defaulted (v : List Instr) : (s.setPending v).defaulted = s.defaulted := rfl

/-! ## supply -/

@[simp] theorem State.setSupply_pending (v : Supply) : (s.setSupply v).pending = s.pending := rfl
@[simp] theorem State.setSupply_supply (v : Supply) : (s.setSupply v).supply = v := rfl
@[simp] theorem State.setSupply_lines (v : Supply) : (s.setSupply v).lines = s.lines := rfl
@[simp] theorem State.setSupply_rail (v : Supply) : (s.setSupply v).rail = s.rail := rfl
@[simp] theorem State.setSupply_railAsks (v : Supply) : (s.setSupply v).railAsks = s.railAsks := rfl
@[simp] theorem State.setSupply_trackers (v : Supply) : (s.setSupply v).trackers = s.trackers := rfl
@[simp] theorem State.setSupply_frozen (v : Supply) : (s.setSupply v).frozen = s.frozen := rfl
@[simp] theorem State.setSupply_schedules (v : Supply) : (s.setSupply v).schedules = s.schedules := rfl
@[simp] theorem State.setSupply_outputs (v : Supply) : (s.setSupply v).outputs = s.outputs := rfl
@[simp] theorem State.setSupply_silence (v : Supply) : (s.setSupply v).silence = s.silence := rfl
@[simp] theorem State.setSupply_arbiter (v : Supply) : (s.setSupply v).arbiter = s.arbiter := rfl
@[simp] theorem State.setSupply_mains (v : Supply) : (s.setSupply v).mains = s.mains := rfl
@[simp] theorem State.setSupply_alwaysOn (v : Supply) : (s.setSupply v).alwaysOn = s.alwaysOn := rfl
@[simp] theorem State.setSupply_array (v : Supply) : (s.setSupply v).array = s.array := rfl
@[simp] theorem State.setSupply_writer (v : Supply) : (s.setSupply v).writer = s.writer := rfl
@[simp] theorem State.setSupply_capture (v : Supply) : (s.setSupply v).capture = s.capture := rfl
@[simp] theorem State.setSupply_scan (v : Supply) : (s.setSupply v).scan = s.scan := rfl
@[simp] theorem State.setSupply_scrub (v : Supply) : (s.setSupply v).scrub = s.scrub := rfl
@[simp] theorem State.setSupply_link (v : Supply) : (s.setSupply v).link = s.link := rfl
@[simp] theorem State.setSupply_settings (v : Supply) : (s.setSupply v).settings = s.settings := rfl
@[simp] theorem State.setSupply_defaulted (v : Supply) : (s.setSupply v).defaulted = s.defaulted := rfl

/-! ## lines -/

@[simp] theorem State.setLines_pending (v : Pair Lines) : (s.setLines v).pending = s.pending := rfl
@[simp] theorem State.setLines_supply (v : Pair Lines) : (s.setLines v).supply = s.supply := rfl
@[simp] theorem State.setLines_lines (v : Pair Lines) : (s.setLines v).lines = v := rfl
@[simp] theorem State.setLines_rail (v : Pair Lines) : (s.setLines v).rail = s.rail := rfl
@[simp] theorem State.setLines_railAsks (v : Pair Lines) : (s.setLines v).railAsks = s.railAsks := rfl
@[simp] theorem State.setLines_trackers (v : Pair Lines) : (s.setLines v).trackers = s.trackers := rfl
@[simp] theorem State.setLines_frozen (v : Pair Lines) : (s.setLines v).frozen = s.frozen := rfl
@[simp] theorem State.setLines_schedules (v : Pair Lines) : (s.setLines v).schedules = s.schedules := rfl
@[simp] theorem State.setLines_outputs (v : Pair Lines) : (s.setLines v).outputs = s.outputs := rfl
@[simp] theorem State.setLines_silence (v : Pair Lines) : (s.setLines v).silence = s.silence := rfl
@[simp] theorem State.setLines_arbiter (v : Pair Lines) : (s.setLines v).arbiter = s.arbiter := rfl
@[simp] theorem State.setLines_mains (v : Pair Lines) : (s.setLines v).mains = s.mains := rfl
@[simp] theorem State.setLines_alwaysOn (v : Pair Lines) : (s.setLines v).alwaysOn = s.alwaysOn := rfl
@[simp] theorem State.setLines_array (v : Pair Lines) : (s.setLines v).array = s.array := rfl
@[simp] theorem State.setLines_writer (v : Pair Lines) : (s.setLines v).writer = s.writer := rfl
@[simp] theorem State.setLines_capture (v : Pair Lines) : (s.setLines v).capture = s.capture := rfl
@[simp] theorem State.setLines_scan (v : Pair Lines) : (s.setLines v).scan = s.scan := rfl
@[simp] theorem State.setLines_scrub (v : Pair Lines) : (s.setLines v).scrub = s.scrub := rfl
@[simp] theorem State.setLines_link (v : Pair Lines) : (s.setLines v).link = s.link := rfl
@[simp] theorem State.setLines_settings (v : Pair Lines) : (s.setLines v).settings = s.settings := rfl
@[simp] theorem State.setLines_defaulted (v : Pair Lines) : (s.setLines v).defaulted = s.defaulted := rfl

/-! ## rail -/

@[simp] theorem State.setRail_pending (v : Bool) : (s.setRail v).pending = s.pending := rfl
@[simp] theorem State.setRail_supply (v : Bool) : (s.setRail v).supply = s.supply := rfl
@[simp] theorem State.setRail_lines (v : Bool) : (s.setRail v).lines = s.lines := rfl
@[simp] theorem State.setRail_rail (v : Bool) : (s.setRail v).rail = v := rfl
@[simp] theorem State.setRail_railAsks (v : Bool) : (s.setRail v).railAsks = s.railAsks := rfl
@[simp] theorem State.setRail_trackers (v : Bool) : (s.setRail v).trackers = s.trackers := rfl
@[simp] theorem State.setRail_frozen (v : Bool) : (s.setRail v).frozen = s.frozen := rfl
@[simp] theorem State.setRail_schedules (v : Bool) : (s.setRail v).schedules = s.schedules := rfl
@[simp] theorem State.setRail_outputs (v : Bool) : (s.setRail v).outputs = s.outputs := rfl
@[simp] theorem State.setRail_silence (v : Bool) : (s.setRail v).silence = s.silence := rfl
@[simp] theorem State.setRail_arbiter (v : Bool) : (s.setRail v).arbiter = s.arbiter := rfl
@[simp] theorem State.setRail_mains (v : Bool) : (s.setRail v).mains = s.mains := rfl
@[simp] theorem State.setRail_alwaysOn (v : Bool) : (s.setRail v).alwaysOn = s.alwaysOn := rfl
@[simp] theorem State.setRail_array (v : Bool) : (s.setRail v).array = s.array := rfl
@[simp] theorem State.setRail_writer (v : Bool) : (s.setRail v).writer = s.writer := rfl
@[simp] theorem State.setRail_capture (v : Bool) : (s.setRail v).capture = s.capture := rfl
@[simp] theorem State.setRail_scan (v : Bool) : (s.setRail v).scan = s.scan := rfl
@[simp] theorem State.setRail_scrub (v : Bool) : (s.setRail v).scrub = s.scrub := rfl
@[simp] theorem State.setRail_link (v : Bool) : (s.setRail v).link = s.link := rfl
@[simp] theorem State.setRail_settings (v : Bool) : (s.setRail v).settings = s.settings := rfl
@[simp] theorem State.setRail_defaulted (v : Bool) : (s.setRail v).defaulted = s.defaulted := rfl

/-! ## railAsks -/

@[simp] theorem State.setRailAsks_pending (v : Nat) : (s.setRailAsks v).pending = s.pending := rfl
@[simp] theorem State.setRailAsks_supply (v : Nat) : (s.setRailAsks v).supply = s.supply := rfl
@[simp] theorem State.setRailAsks_lines (v : Nat) : (s.setRailAsks v).lines = s.lines := rfl
@[simp] theorem State.setRailAsks_rail (v : Nat) : (s.setRailAsks v).rail = s.rail := rfl
@[simp] theorem State.setRailAsks_railAsks (v : Nat) : (s.setRailAsks v).railAsks = v := rfl
@[simp] theorem State.setRailAsks_trackers (v : Nat) : (s.setRailAsks v).trackers = s.trackers := rfl
@[simp] theorem State.setRailAsks_frozen (v : Nat) : (s.setRailAsks v).frozen = s.frozen := rfl
@[simp] theorem State.setRailAsks_schedules (v : Nat) : (s.setRailAsks v).schedules = s.schedules := rfl
@[simp] theorem State.setRailAsks_outputs (v : Nat) : (s.setRailAsks v).outputs = s.outputs := rfl
@[simp] theorem State.setRailAsks_silence (v : Nat) : (s.setRailAsks v).silence = s.silence := rfl
@[simp] theorem State.setRailAsks_arbiter (v : Nat) : (s.setRailAsks v).arbiter = s.arbiter := rfl
@[simp] theorem State.setRailAsks_mains (v : Nat) : (s.setRailAsks v).mains = s.mains := rfl
@[simp] theorem State.setRailAsks_alwaysOn (v : Nat) : (s.setRailAsks v).alwaysOn = s.alwaysOn := rfl
@[simp] theorem State.setRailAsks_array (v : Nat) : (s.setRailAsks v).array = s.array := rfl
@[simp] theorem State.setRailAsks_writer (v : Nat) : (s.setRailAsks v).writer = s.writer := rfl
@[simp] theorem State.setRailAsks_capture (v : Nat) : (s.setRailAsks v).capture = s.capture := rfl
@[simp] theorem State.setRailAsks_scan (v : Nat) : (s.setRailAsks v).scan = s.scan := rfl
@[simp] theorem State.setRailAsks_scrub (v : Nat) : (s.setRailAsks v).scrub = s.scrub := rfl
@[simp] theorem State.setRailAsks_link (v : Nat) : (s.setRailAsks v).link = s.link := rfl
@[simp] theorem State.setRailAsks_settings (v : Nat) : (s.setRailAsks v).settings = s.settings := rfl
@[simp] theorem State.setRailAsks_defaulted (v : Nat) : (s.setRailAsks v).defaulted = s.defaulted := rfl

/-! ## trackers -/

@[simp] theorem State.setTrackers_pending (v : Pair Tracker) : (s.setTrackers v).pending = s.pending := rfl
@[simp] theorem State.setTrackers_supply (v : Pair Tracker) : (s.setTrackers v).supply = s.supply := rfl
@[simp] theorem State.setTrackers_lines (v : Pair Tracker) : (s.setTrackers v).lines = s.lines := rfl
@[simp] theorem State.setTrackers_rail (v : Pair Tracker) : (s.setTrackers v).rail = s.rail := rfl
@[simp] theorem State.setTrackers_railAsks (v : Pair Tracker) : (s.setTrackers v).railAsks = s.railAsks := rfl
@[simp] theorem State.setTrackers_trackers (v : Pair Tracker) : (s.setTrackers v).trackers = v := rfl
@[simp] theorem State.setTrackers_frozen (v : Pair Tracker) : (s.setTrackers v).frozen = s.frozen := rfl
@[simp] theorem State.setTrackers_schedules (v : Pair Tracker) : (s.setTrackers v).schedules = s.schedules := rfl
@[simp] theorem State.setTrackers_outputs (v : Pair Tracker) : (s.setTrackers v).outputs = s.outputs := rfl
@[simp] theorem State.setTrackers_silence (v : Pair Tracker) : (s.setTrackers v).silence = s.silence := rfl
@[simp] theorem State.setTrackers_arbiter (v : Pair Tracker) : (s.setTrackers v).arbiter = s.arbiter := rfl
@[simp] theorem State.setTrackers_mains (v : Pair Tracker) : (s.setTrackers v).mains = s.mains := rfl
@[simp] theorem State.setTrackers_alwaysOn (v : Pair Tracker) : (s.setTrackers v).alwaysOn = s.alwaysOn := rfl
@[simp] theorem State.setTrackers_array (v : Pair Tracker) : (s.setTrackers v).array = s.array := rfl
@[simp] theorem State.setTrackers_writer (v : Pair Tracker) : (s.setTrackers v).writer = s.writer := rfl
@[simp] theorem State.setTrackers_capture (v : Pair Tracker) : (s.setTrackers v).capture = s.capture := rfl
@[simp] theorem State.setTrackers_scan (v : Pair Tracker) : (s.setTrackers v).scan = s.scan := rfl
@[simp] theorem State.setTrackers_scrub (v : Pair Tracker) : (s.setTrackers v).scrub = s.scrub := rfl
@[simp] theorem State.setTrackers_link (v : Pair Tracker) : (s.setTrackers v).link = s.link := rfl
@[simp] theorem State.setTrackers_settings (v : Pair Tracker) : (s.setTrackers v).settings = s.settings := rfl
@[simp] theorem State.setTrackers_defaulted (v : Pair Tracker) : (s.setTrackers v).defaulted = s.defaulted := rfl

/-! ## frozen -/

@[simp] theorem State.setFrozen_pending (v : Bool) : (s.setFrozen v).pending = s.pending := rfl
@[simp] theorem State.setFrozen_supply (v : Bool) : (s.setFrozen v).supply = s.supply := rfl
@[simp] theorem State.setFrozen_lines (v : Bool) : (s.setFrozen v).lines = s.lines := rfl
@[simp] theorem State.setFrozen_rail (v : Bool) : (s.setFrozen v).rail = s.rail := rfl
@[simp] theorem State.setFrozen_railAsks (v : Bool) : (s.setFrozen v).railAsks = s.railAsks := rfl
@[simp] theorem State.setFrozen_trackers (v : Bool) : (s.setFrozen v).trackers = s.trackers := rfl
@[simp] theorem State.setFrozen_frozen (v : Bool) : (s.setFrozen v).frozen = v := rfl
@[simp] theorem State.setFrozen_schedules (v : Bool) : (s.setFrozen v).schedules = s.schedules := rfl
@[simp] theorem State.setFrozen_outputs (v : Bool) : (s.setFrozen v).outputs = s.outputs := rfl
@[simp] theorem State.setFrozen_silence (v : Bool) : (s.setFrozen v).silence = s.silence := rfl
@[simp] theorem State.setFrozen_arbiter (v : Bool) : (s.setFrozen v).arbiter = s.arbiter := rfl
@[simp] theorem State.setFrozen_mains (v : Bool) : (s.setFrozen v).mains = s.mains := rfl
@[simp] theorem State.setFrozen_alwaysOn (v : Bool) : (s.setFrozen v).alwaysOn = s.alwaysOn := rfl
@[simp] theorem State.setFrozen_array (v : Bool) : (s.setFrozen v).array = s.array := rfl
@[simp] theorem State.setFrozen_writer (v : Bool) : (s.setFrozen v).writer = s.writer := rfl
@[simp] theorem State.setFrozen_capture (v : Bool) : (s.setFrozen v).capture = s.capture := rfl
@[simp] theorem State.setFrozen_scan (v : Bool) : (s.setFrozen v).scan = s.scan := rfl
@[simp] theorem State.setFrozen_scrub (v : Bool) : (s.setFrozen v).scrub = s.scrub := rfl
@[simp] theorem State.setFrozen_link (v : Bool) : (s.setFrozen v).link = s.link := rfl
@[simp] theorem State.setFrozen_settings (v : Bool) : (s.setFrozen v).settings = s.settings := rfl
@[simp] theorem State.setFrozen_defaulted (v : Bool) : (s.setFrozen v).defaulted = s.defaulted := rfl

/-! ## schedules -/

@[simp] theorem State.setSchedules_pending (v : Pair Schedule) : (s.setSchedules v).pending = s.pending := rfl
@[simp] theorem State.setSchedules_supply (v : Pair Schedule) : (s.setSchedules v).supply = s.supply := rfl
@[simp] theorem State.setSchedules_lines (v : Pair Schedule) : (s.setSchedules v).lines = s.lines := rfl
@[simp] theorem State.setSchedules_rail (v : Pair Schedule) : (s.setSchedules v).rail = s.rail := rfl
@[simp] theorem State.setSchedules_railAsks (v : Pair Schedule) : (s.setSchedules v).railAsks = s.railAsks := rfl
@[simp] theorem State.setSchedules_trackers (v : Pair Schedule) : (s.setSchedules v).trackers = s.trackers := rfl
@[simp] theorem State.setSchedules_frozen (v : Pair Schedule) : (s.setSchedules v).frozen = s.frozen := rfl
@[simp] theorem State.setSchedules_schedules (v : Pair Schedule) : (s.setSchedules v).schedules = v := rfl
@[simp] theorem State.setSchedules_outputs (v : Pair Schedule) : (s.setSchedules v).outputs = s.outputs := rfl
@[simp] theorem State.setSchedules_silence (v : Pair Schedule) : (s.setSchedules v).silence = s.silence := rfl
@[simp] theorem State.setSchedules_arbiter (v : Pair Schedule) : (s.setSchedules v).arbiter = s.arbiter := rfl
@[simp] theorem State.setSchedules_mains (v : Pair Schedule) : (s.setSchedules v).mains = s.mains := rfl
@[simp] theorem State.setSchedules_alwaysOn (v : Pair Schedule) : (s.setSchedules v).alwaysOn = s.alwaysOn := rfl
@[simp] theorem State.setSchedules_array (v : Pair Schedule) : (s.setSchedules v).array = s.array := rfl
@[simp] theorem State.setSchedules_writer (v : Pair Schedule) : (s.setSchedules v).writer = s.writer := rfl
@[simp] theorem State.setSchedules_capture (v : Pair Schedule) : (s.setSchedules v).capture = s.capture := rfl
@[simp] theorem State.setSchedules_scan (v : Pair Schedule) : (s.setSchedules v).scan = s.scan := rfl
@[simp] theorem State.setSchedules_scrub (v : Pair Schedule) : (s.setSchedules v).scrub = s.scrub := rfl
@[simp] theorem State.setSchedules_link (v : Pair Schedule) : (s.setSchedules v).link = s.link := rfl
@[simp] theorem State.setSchedules_settings (v : Pair Schedule) : (s.setSchedules v).settings = s.settings := rfl
@[simp] theorem State.setSchedules_defaulted (v : Pair Schedule) : (s.setSchedules v).defaulted = s.defaulted := rfl

/-! ## outputs -/

@[simp] theorem State.setOutputs_pending (v : Pair Outputs) : (s.setOutputs v).pending = s.pending := rfl
@[simp] theorem State.setOutputs_supply (v : Pair Outputs) : (s.setOutputs v).supply = s.supply := rfl
@[simp] theorem State.setOutputs_lines (v : Pair Outputs) : (s.setOutputs v).lines = s.lines := rfl
@[simp] theorem State.setOutputs_rail (v : Pair Outputs) : (s.setOutputs v).rail = s.rail := rfl
@[simp] theorem State.setOutputs_railAsks (v : Pair Outputs) : (s.setOutputs v).railAsks = s.railAsks := rfl
@[simp] theorem State.setOutputs_trackers (v : Pair Outputs) : (s.setOutputs v).trackers = s.trackers := rfl
@[simp] theorem State.setOutputs_frozen (v : Pair Outputs) : (s.setOutputs v).frozen = s.frozen := rfl
@[simp] theorem State.setOutputs_schedules (v : Pair Outputs) : (s.setOutputs v).schedules = s.schedules := rfl
@[simp] theorem State.setOutputs_outputs (v : Pair Outputs) : (s.setOutputs v).outputs = v := rfl
@[simp] theorem State.setOutputs_silence (v : Pair Outputs) : (s.setOutputs v).silence = s.silence := rfl
@[simp] theorem State.setOutputs_arbiter (v : Pair Outputs) : (s.setOutputs v).arbiter = s.arbiter := rfl
@[simp] theorem State.setOutputs_mains (v : Pair Outputs) : (s.setOutputs v).mains = s.mains := rfl
@[simp] theorem State.setOutputs_alwaysOn (v : Pair Outputs) : (s.setOutputs v).alwaysOn = s.alwaysOn := rfl
@[simp] theorem State.setOutputs_array (v : Pair Outputs) : (s.setOutputs v).array = s.array := rfl
@[simp] theorem State.setOutputs_writer (v : Pair Outputs) : (s.setOutputs v).writer = s.writer := rfl
@[simp] theorem State.setOutputs_capture (v : Pair Outputs) : (s.setOutputs v).capture = s.capture := rfl
@[simp] theorem State.setOutputs_scan (v : Pair Outputs) : (s.setOutputs v).scan = s.scan := rfl
@[simp] theorem State.setOutputs_scrub (v : Pair Outputs) : (s.setOutputs v).scrub = s.scrub := rfl
@[simp] theorem State.setOutputs_link (v : Pair Outputs) : (s.setOutputs v).link = s.link := rfl
@[simp] theorem State.setOutputs_settings (v : Pair Outputs) : (s.setOutputs v).settings = s.settings := rfl
@[simp] theorem State.setOutputs_defaulted (v : Pair Outputs) : (s.setOutputs v).defaulted = s.defaulted := rfl

/-! ## silence -/

@[simp] theorem State.setSilence_pending (v : Silence) : (s.setSilence v).pending = s.pending := rfl
@[simp] theorem State.setSilence_supply (v : Silence) : (s.setSilence v).supply = s.supply := rfl
@[simp] theorem State.setSilence_lines (v : Silence) : (s.setSilence v).lines = s.lines := rfl
@[simp] theorem State.setSilence_rail (v : Silence) : (s.setSilence v).rail = s.rail := rfl
@[simp] theorem State.setSilence_railAsks (v : Silence) : (s.setSilence v).railAsks = s.railAsks := rfl
@[simp] theorem State.setSilence_trackers (v : Silence) : (s.setSilence v).trackers = s.trackers := rfl
@[simp] theorem State.setSilence_frozen (v : Silence) : (s.setSilence v).frozen = s.frozen := rfl
@[simp] theorem State.setSilence_schedules (v : Silence) : (s.setSilence v).schedules = s.schedules := rfl
@[simp] theorem State.setSilence_outputs (v : Silence) : (s.setSilence v).outputs = s.outputs := rfl
@[simp] theorem State.setSilence_silence (v : Silence) : (s.setSilence v).silence = v := rfl
@[simp] theorem State.setSilence_arbiter (v : Silence) : (s.setSilence v).arbiter = s.arbiter := rfl
@[simp] theorem State.setSilence_mains (v : Silence) : (s.setSilence v).mains = s.mains := rfl
@[simp] theorem State.setSilence_alwaysOn (v : Silence) : (s.setSilence v).alwaysOn = s.alwaysOn := rfl
@[simp] theorem State.setSilence_array (v : Silence) : (s.setSilence v).array = s.array := rfl
@[simp] theorem State.setSilence_writer (v : Silence) : (s.setSilence v).writer = s.writer := rfl
@[simp] theorem State.setSilence_capture (v : Silence) : (s.setSilence v).capture = s.capture := rfl
@[simp] theorem State.setSilence_scan (v : Silence) : (s.setSilence v).scan = s.scan := rfl
@[simp] theorem State.setSilence_scrub (v : Silence) : (s.setSilence v).scrub = s.scrub := rfl
@[simp] theorem State.setSilence_link (v : Silence) : (s.setSilence v).link = s.link := rfl
@[simp] theorem State.setSilence_settings (v : Silence) : (s.setSilence v).settings = s.settings := rfl
@[simp] theorem State.setSilence_defaulted (v : Silence) : (s.setSilence v).defaulted = s.defaulted := rfl

/-! ## arbiter -/

@[simp] theorem State.setArbiter_pending (v : Arbiter) : (s.setArbiter v).pending = s.pending := rfl
@[simp] theorem State.setArbiter_supply (v : Arbiter) : (s.setArbiter v).supply = s.supply := rfl
@[simp] theorem State.setArbiter_lines (v : Arbiter) : (s.setArbiter v).lines = s.lines := rfl
@[simp] theorem State.setArbiter_rail (v : Arbiter) : (s.setArbiter v).rail = s.rail := rfl
@[simp] theorem State.setArbiter_railAsks (v : Arbiter) : (s.setArbiter v).railAsks = s.railAsks := rfl
@[simp] theorem State.setArbiter_trackers (v : Arbiter) : (s.setArbiter v).trackers = s.trackers := rfl
@[simp] theorem State.setArbiter_frozen (v : Arbiter) : (s.setArbiter v).frozen = s.frozen := rfl
@[simp] theorem State.setArbiter_schedules (v : Arbiter) : (s.setArbiter v).schedules = s.schedules := rfl
@[simp] theorem State.setArbiter_outputs (v : Arbiter) : (s.setArbiter v).outputs = s.outputs := rfl
@[simp] theorem State.setArbiter_silence (v : Arbiter) : (s.setArbiter v).silence = s.silence := rfl
@[simp] theorem State.setArbiter_arbiter (v : Arbiter) : (s.setArbiter v).arbiter = v := rfl
@[simp] theorem State.setArbiter_mains (v : Arbiter) : (s.setArbiter v).mains = s.mains := rfl
@[simp] theorem State.setArbiter_alwaysOn (v : Arbiter) : (s.setArbiter v).alwaysOn = s.alwaysOn := rfl
@[simp] theorem State.setArbiter_array (v : Arbiter) : (s.setArbiter v).array = s.array := rfl
@[simp] theorem State.setArbiter_writer (v : Arbiter) : (s.setArbiter v).writer = s.writer := rfl
@[simp] theorem State.setArbiter_capture (v : Arbiter) : (s.setArbiter v).capture = s.capture := rfl
@[simp] theorem State.setArbiter_scan (v : Arbiter) : (s.setArbiter v).scan = s.scan := rfl
@[simp] theorem State.setArbiter_scrub (v : Arbiter) : (s.setArbiter v).scrub = s.scrub := rfl
@[simp] theorem State.setArbiter_link (v : Arbiter) : (s.setArbiter v).link = s.link := rfl
@[simp] theorem State.setArbiter_settings (v : Arbiter) : (s.setArbiter v).settings = s.settings := rfl
@[simp] theorem State.setArbiter_defaulted (v : Arbiter) : (s.setArbiter v).defaulted = s.defaulted := rfl

/-! ## mains -/

@[simp] theorem State.setMains_pending (v : Mains) : (s.setMains v).pending = s.pending := rfl
@[simp] theorem State.setMains_supply (v : Mains) : (s.setMains v).supply = s.supply := rfl
@[simp] theorem State.setMains_lines (v : Mains) : (s.setMains v).lines = s.lines := rfl
@[simp] theorem State.setMains_rail (v : Mains) : (s.setMains v).rail = s.rail := rfl
@[simp] theorem State.setMains_railAsks (v : Mains) : (s.setMains v).railAsks = s.railAsks := rfl
@[simp] theorem State.setMains_trackers (v : Mains) : (s.setMains v).trackers = s.trackers := rfl
@[simp] theorem State.setMains_frozen (v : Mains) : (s.setMains v).frozen = s.frozen := rfl
@[simp] theorem State.setMains_schedules (v : Mains) : (s.setMains v).schedules = s.schedules := rfl
@[simp] theorem State.setMains_outputs (v : Mains) : (s.setMains v).outputs = s.outputs := rfl
@[simp] theorem State.setMains_silence (v : Mains) : (s.setMains v).silence = s.silence := rfl
@[simp] theorem State.setMains_arbiter (v : Mains) : (s.setMains v).arbiter = s.arbiter := rfl
@[simp] theorem State.setMains_mains (v : Mains) : (s.setMains v).mains = v := rfl
@[simp] theorem State.setMains_alwaysOn (v : Mains) : (s.setMains v).alwaysOn = s.alwaysOn := rfl
@[simp] theorem State.setMains_array (v : Mains) : (s.setMains v).array = s.array := rfl
@[simp] theorem State.setMains_writer (v : Mains) : (s.setMains v).writer = s.writer := rfl
@[simp] theorem State.setMains_capture (v : Mains) : (s.setMains v).capture = s.capture := rfl
@[simp] theorem State.setMains_scan (v : Mains) : (s.setMains v).scan = s.scan := rfl
@[simp] theorem State.setMains_scrub (v : Mains) : (s.setMains v).scrub = s.scrub := rfl
@[simp] theorem State.setMains_link (v : Mains) : (s.setMains v).link = s.link := rfl
@[simp] theorem State.setMains_settings (v : Mains) : (s.setMains v).settings = s.settings := rfl
@[simp] theorem State.setMains_defaulted (v : Mains) : (s.setMains v).defaulted = s.defaulted := rfl

/-! ## alwaysOn -/

@[simp] theorem State.setAlwaysOn_pending (v : AlwaysOn) : (s.setAlwaysOn v).pending = s.pending := rfl
@[simp] theorem State.setAlwaysOn_supply (v : AlwaysOn) : (s.setAlwaysOn v).supply = s.supply := rfl
@[simp] theorem State.setAlwaysOn_lines (v : AlwaysOn) : (s.setAlwaysOn v).lines = s.lines := rfl
@[simp] theorem State.setAlwaysOn_rail (v : AlwaysOn) : (s.setAlwaysOn v).rail = s.rail := rfl
@[simp] theorem State.setAlwaysOn_railAsks (v : AlwaysOn) : (s.setAlwaysOn v).railAsks = s.railAsks := rfl
@[simp] theorem State.setAlwaysOn_trackers (v : AlwaysOn) : (s.setAlwaysOn v).trackers = s.trackers := rfl
@[simp] theorem State.setAlwaysOn_frozen (v : AlwaysOn) : (s.setAlwaysOn v).frozen = s.frozen := rfl
@[simp] theorem State.setAlwaysOn_schedules (v : AlwaysOn) : (s.setAlwaysOn v).schedules = s.schedules := rfl
@[simp] theorem State.setAlwaysOn_outputs (v : AlwaysOn) : (s.setAlwaysOn v).outputs = s.outputs := rfl
@[simp] theorem State.setAlwaysOn_silence (v : AlwaysOn) : (s.setAlwaysOn v).silence = s.silence := rfl
@[simp] theorem State.setAlwaysOn_arbiter (v : AlwaysOn) : (s.setAlwaysOn v).arbiter = s.arbiter := rfl
@[simp] theorem State.setAlwaysOn_mains (v : AlwaysOn) : (s.setAlwaysOn v).mains = s.mains := rfl
@[simp] theorem State.setAlwaysOn_alwaysOn (v : AlwaysOn) : (s.setAlwaysOn v).alwaysOn = v := rfl
@[simp] theorem State.setAlwaysOn_array (v : AlwaysOn) : (s.setAlwaysOn v).array = s.array := rfl
@[simp] theorem State.setAlwaysOn_writer (v : AlwaysOn) : (s.setAlwaysOn v).writer = s.writer := rfl
@[simp] theorem State.setAlwaysOn_capture (v : AlwaysOn) : (s.setAlwaysOn v).capture = s.capture := rfl
@[simp] theorem State.setAlwaysOn_scan (v : AlwaysOn) : (s.setAlwaysOn v).scan = s.scan := rfl
@[simp] theorem State.setAlwaysOn_scrub (v : AlwaysOn) : (s.setAlwaysOn v).scrub = s.scrub := rfl
@[simp] theorem State.setAlwaysOn_link (v : AlwaysOn) : (s.setAlwaysOn v).link = s.link := rfl
@[simp] theorem State.setAlwaysOn_settings (v : AlwaysOn) : (s.setAlwaysOn v).settings = s.settings := rfl
@[simp] theorem State.setAlwaysOn_defaulted (v : AlwaysOn) : (s.setAlwaysOn v).defaulted = s.defaulted := rfl

/-! ## array -/

@[simp] theorem State.setArray_pending (v : RetentionArray) : (s.setArray v).pending = s.pending := rfl
@[simp] theorem State.setArray_supply (v : RetentionArray) : (s.setArray v).supply = s.supply := rfl
@[simp] theorem State.setArray_lines (v : RetentionArray) : (s.setArray v).lines = s.lines := rfl
@[simp] theorem State.setArray_rail (v : RetentionArray) : (s.setArray v).rail = s.rail := rfl
@[simp] theorem State.setArray_railAsks (v : RetentionArray) : (s.setArray v).railAsks = s.railAsks := rfl
@[simp] theorem State.setArray_trackers (v : RetentionArray) : (s.setArray v).trackers = s.trackers := rfl
@[simp] theorem State.setArray_frozen (v : RetentionArray) : (s.setArray v).frozen = s.frozen := rfl
@[simp] theorem State.setArray_schedules (v : RetentionArray) : (s.setArray v).schedules = s.schedules := rfl
@[simp] theorem State.setArray_outputs (v : RetentionArray) : (s.setArray v).outputs = s.outputs := rfl
@[simp] theorem State.setArray_silence (v : RetentionArray) : (s.setArray v).silence = s.silence := rfl
@[simp] theorem State.setArray_arbiter (v : RetentionArray) : (s.setArray v).arbiter = s.arbiter := rfl
@[simp] theorem State.setArray_mains (v : RetentionArray) : (s.setArray v).mains = s.mains := rfl
@[simp] theorem State.setArray_alwaysOn (v : RetentionArray) : (s.setArray v).alwaysOn = s.alwaysOn := rfl
@[simp] theorem State.setArray_array (v : RetentionArray) : (s.setArray v).array = v := rfl
@[simp] theorem State.setArray_writer (v : RetentionArray) : (s.setArray v).writer = s.writer := rfl
@[simp] theorem State.setArray_capture (v : RetentionArray) : (s.setArray v).capture = s.capture := rfl
@[simp] theorem State.setArray_scan (v : RetentionArray) : (s.setArray v).scan = s.scan := rfl
@[simp] theorem State.setArray_scrub (v : RetentionArray) : (s.setArray v).scrub = s.scrub := rfl
@[simp] theorem State.setArray_link (v : RetentionArray) : (s.setArray v).link = s.link := rfl
@[simp] theorem State.setArray_settings (v : RetentionArray) : (s.setArray v).settings = s.settings := rfl
@[simp] theorem State.setArray_defaulted (v : RetentionArray) : (s.setArray v).defaulted = s.defaulted := rfl

/-! ## writer -/

@[simp] theorem State.setWriter_pending (v : Writer) : (s.setWriter v).pending = s.pending := rfl
@[simp] theorem State.setWriter_supply (v : Writer) : (s.setWriter v).supply = s.supply := rfl
@[simp] theorem State.setWriter_lines (v : Writer) : (s.setWriter v).lines = s.lines := rfl
@[simp] theorem State.setWriter_rail (v : Writer) : (s.setWriter v).rail = s.rail := rfl
@[simp] theorem State.setWriter_railAsks (v : Writer) : (s.setWriter v).railAsks = s.railAsks := rfl
@[simp] theorem State.setWriter_trackers (v : Writer) : (s.setWriter v).trackers = s.trackers := rfl
@[simp] theorem State.setWriter_frozen (v : Writer) : (s.setWriter v).frozen = s.frozen := rfl
@[simp] theorem State.setWriter_schedules (v : Writer) : (s.setWriter v).schedules = s.schedules := rfl
@[simp] theorem State.setWriter_outputs (v : Writer) : (s.setWriter v).outputs = s.outputs := rfl
@[simp] theorem State.setWriter_silence (v : Writer) : (s.setWriter v).silence = s.silence := rfl
@[simp] theorem State.setWriter_arbiter (v : Writer) : (s.setWriter v).arbiter = s.arbiter := rfl
@[simp] theorem State.setWriter_mains (v : Writer) : (s.setWriter v).mains = s.mains := rfl
@[simp] theorem State.setWriter_alwaysOn (v : Writer) : (s.setWriter v).alwaysOn = s.alwaysOn := rfl
@[simp] theorem State.setWriter_array (v : Writer) : (s.setWriter v).array = s.array := rfl
@[simp] theorem State.setWriter_writer (v : Writer) : (s.setWriter v).writer = v := rfl
@[simp] theorem State.setWriter_capture (v : Writer) : (s.setWriter v).capture = s.capture := rfl
@[simp] theorem State.setWriter_scan (v : Writer) : (s.setWriter v).scan = s.scan := rfl
@[simp] theorem State.setWriter_scrub (v : Writer) : (s.setWriter v).scrub = s.scrub := rfl
@[simp] theorem State.setWriter_link (v : Writer) : (s.setWriter v).link = s.link := rfl
@[simp] theorem State.setWriter_settings (v : Writer) : (s.setWriter v).settings = s.settings := rfl
@[simp] theorem State.setWriter_defaulted (v : Writer) : (s.setWriter v).defaulted = s.defaulted := rfl

/-! ## capture -/

@[simp] theorem State.setCapture_pending (v : Capture) : (s.setCapture v).pending = s.pending := rfl
@[simp] theorem State.setCapture_supply (v : Capture) : (s.setCapture v).supply = s.supply := rfl
@[simp] theorem State.setCapture_lines (v : Capture) : (s.setCapture v).lines = s.lines := rfl
@[simp] theorem State.setCapture_rail (v : Capture) : (s.setCapture v).rail = s.rail := rfl
@[simp] theorem State.setCapture_railAsks (v : Capture) : (s.setCapture v).railAsks = s.railAsks := rfl
@[simp] theorem State.setCapture_trackers (v : Capture) : (s.setCapture v).trackers = s.trackers := rfl
@[simp] theorem State.setCapture_frozen (v : Capture) : (s.setCapture v).frozen = s.frozen := rfl
@[simp] theorem State.setCapture_schedules (v : Capture) : (s.setCapture v).schedules = s.schedules := rfl
@[simp] theorem State.setCapture_outputs (v : Capture) : (s.setCapture v).outputs = s.outputs := rfl
@[simp] theorem State.setCapture_silence (v : Capture) : (s.setCapture v).silence = s.silence := rfl
@[simp] theorem State.setCapture_arbiter (v : Capture) : (s.setCapture v).arbiter = s.arbiter := rfl
@[simp] theorem State.setCapture_mains (v : Capture) : (s.setCapture v).mains = s.mains := rfl
@[simp] theorem State.setCapture_alwaysOn (v : Capture) : (s.setCapture v).alwaysOn = s.alwaysOn := rfl
@[simp] theorem State.setCapture_array (v : Capture) : (s.setCapture v).array = s.array := rfl
@[simp] theorem State.setCapture_writer (v : Capture) : (s.setCapture v).writer = s.writer := rfl
@[simp] theorem State.setCapture_capture (v : Capture) : (s.setCapture v).capture = v := rfl
@[simp] theorem State.setCapture_scan (v : Capture) : (s.setCapture v).scan = s.scan := rfl
@[simp] theorem State.setCapture_scrub (v : Capture) : (s.setCapture v).scrub = s.scrub := rfl
@[simp] theorem State.setCapture_link (v : Capture) : (s.setCapture v).link = s.link := rfl
@[simp] theorem State.setCapture_settings (v : Capture) : (s.setCapture v).settings = s.settings := rfl
@[simp] theorem State.setCapture_defaulted (v : Capture) : (s.setCapture v).defaulted = s.defaulted := rfl

/-! ## scan -/

@[simp] theorem State.setScan_pending (v : Scan) : (s.setScan v).pending = s.pending := rfl
@[simp] theorem State.setScan_supply (v : Scan) : (s.setScan v).supply = s.supply := rfl
@[simp] theorem State.setScan_lines (v : Scan) : (s.setScan v).lines = s.lines := rfl
@[simp] theorem State.setScan_rail (v : Scan) : (s.setScan v).rail = s.rail := rfl
@[simp] theorem State.setScan_railAsks (v : Scan) : (s.setScan v).railAsks = s.railAsks := rfl
@[simp] theorem State.setScan_trackers (v : Scan) : (s.setScan v).trackers = s.trackers := rfl
@[simp] theorem State.setScan_frozen (v : Scan) : (s.setScan v).frozen = s.frozen := rfl
@[simp] theorem State.setScan_schedules (v : Scan) : (s.setScan v).schedules = s.schedules := rfl
@[simp] theorem State.setScan_outputs (v : Scan) : (s.setScan v).outputs = s.outputs := rfl
@[simp] theorem State.setScan_silence (v : Scan) : (s.setScan v).silence = s.silence := rfl
@[simp] theorem State.setScan_arbiter (v : Scan) : (s.setScan v).arbiter = s.arbiter := rfl
@[simp] theorem State.setScan_mains (v : Scan) : (s.setScan v).mains = s.mains := rfl
@[simp] theorem State.setScan_alwaysOn (v : Scan) : (s.setScan v).alwaysOn = s.alwaysOn := rfl
@[simp] theorem State.setScan_array (v : Scan) : (s.setScan v).array = s.array := rfl
@[simp] theorem State.setScan_writer (v : Scan) : (s.setScan v).writer = s.writer := rfl
@[simp] theorem State.setScan_capture (v : Scan) : (s.setScan v).capture = s.capture := rfl
@[simp] theorem State.setScan_scan (v : Scan) : (s.setScan v).scan = v := rfl
@[simp] theorem State.setScan_scrub (v : Scan) : (s.setScan v).scrub = s.scrub := rfl
@[simp] theorem State.setScan_link (v : Scan) : (s.setScan v).link = s.link := rfl
@[simp] theorem State.setScan_settings (v : Scan) : (s.setScan v).settings = s.settings := rfl
@[simp] theorem State.setScan_defaulted (v : Scan) : (s.setScan v).defaulted = s.defaulted := rfl

/-! ## scrub -/

@[simp] theorem State.setScrub_pending (v : Scrub) : (s.setScrub v).pending = s.pending := rfl
@[simp] theorem State.setScrub_supply (v : Scrub) : (s.setScrub v).supply = s.supply := rfl
@[simp] theorem State.setScrub_lines (v : Scrub) : (s.setScrub v).lines = s.lines := rfl
@[simp] theorem State.setScrub_rail (v : Scrub) : (s.setScrub v).rail = s.rail := rfl
@[simp] theorem State.setScrub_railAsks (v : Scrub) : (s.setScrub v).railAsks = s.railAsks := rfl
@[simp] theorem State.setScrub_trackers (v : Scrub) : (s.setScrub v).trackers = s.trackers := rfl
@[simp] theorem State.setScrub_frozen (v : Scrub) : (s.setScrub v).frozen = s.frozen := rfl
@[simp] theorem State.setScrub_schedules (v : Scrub) : (s.setScrub v).schedules = s.schedules := rfl
@[simp] theorem State.setScrub_outputs (v : Scrub) : (s.setScrub v).outputs = s.outputs := rfl
@[simp] theorem State.setScrub_silence (v : Scrub) : (s.setScrub v).silence = s.silence := rfl
@[simp] theorem State.setScrub_arbiter (v : Scrub) : (s.setScrub v).arbiter = s.arbiter := rfl
@[simp] theorem State.setScrub_mains (v : Scrub) : (s.setScrub v).mains = s.mains := rfl
@[simp] theorem State.setScrub_alwaysOn (v : Scrub) : (s.setScrub v).alwaysOn = s.alwaysOn := rfl
@[simp] theorem State.setScrub_array (v : Scrub) : (s.setScrub v).array = s.array := rfl
@[simp] theorem State.setScrub_writer (v : Scrub) : (s.setScrub v).writer = s.writer := rfl
@[simp] theorem State.setScrub_capture (v : Scrub) : (s.setScrub v).capture = s.capture := rfl
@[simp] theorem State.setScrub_scan (v : Scrub) : (s.setScrub v).scan = s.scan := rfl
@[simp] theorem State.setScrub_scrub (v : Scrub) : (s.setScrub v).scrub = v := rfl
@[simp] theorem State.setScrub_link (v : Scrub) : (s.setScrub v).link = s.link := rfl
@[simp] theorem State.setScrub_settings (v : Scrub) : (s.setScrub v).settings = s.settings := rfl
@[simp] theorem State.setScrub_defaulted (v : Scrub) : (s.setScrub v).defaulted = s.defaulted := rfl

/-! ## link -/

@[simp] theorem State.setLink_pending (v : Link) : (s.setLink v).pending = s.pending := rfl
@[simp] theorem State.setLink_supply (v : Link) : (s.setLink v).supply = s.supply := rfl
@[simp] theorem State.setLink_lines (v : Link) : (s.setLink v).lines = s.lines := rfl
@[simp] theorem State.setLink_rail (v : Link) : (s.setLink v).rail = s.rail := rfl
@[simp] theorem State.setLink_railAsks (v : Link) : (s.setLink v).railAsks = s.railAsks := rfl
@[simp] theorem State.setLink_trackers (v : Link) : (s.setLink v).trackers = s.trackers := rfl
@[simp] theorem State.setLink_frozen (v : Link) : (s.setLink v).frozen = s.frozen := rfl
@[simp] theorem State.setLink_schedules (v : Link) : (s.setLink v).schedules = s.schedules := rfl
@[simp] theorem State.setLink_outputs (v : Link) : (s.setLink v).outputs = s.outputs := rfl
@[simp] theorem State.setLink_silence (v : Link) : (s.setLink v).silence = s.silence := rfl
@[simp] theorem State.setLink_arbiter (v : Link) : (s.setLink v).arbiter = s.arbiter := rfl
@[simp] theorem State.setLink_mains (v : Link) : (s.setLink v).mains = s.mains := rfl
@[simp] theorem State.setLink_alwaysOn (v : Link) : (s.setLink v).alwaysOn = s.alwaysOn := rfl
@[simp] theorem State.setLink_array (v : Link) : (s.setLink v).array = s.array := rfl
@[simp] theorem State.setLink_writer (v : Link) : (s.setLink v).writer = s.writer := rfl
@[simp] theorem State.setLink_capture (v : Link) : (s.setLink v).capture = s.capture := rfl
@[simp] theorem State.setLink_scan (v : Link) : (s.setLink v).scan = s.scan := rfl
@[simp] theorem State.setLink_scrub (v : Link) : (s.setLink v).scrub = s.scrub := rfl
@[simp] theorem State.setLink_link (v : Link) : (s.setLink v).link = v := rfl
@[simp] theorem State.setLink_settings (v : Link) : (s.setLink v).settings = s.settings := rfl
@[simp] theorem State.setLink_defaulted (v : Link) : (s.setLink v).defaulted = s.defaulted := rfl

/-! ## settings -/

@[simp] theorem State.setSettings_pending (v : Settings) : (s.setSettings v).pending = s.pending := rfl
@[simp] theorem State.setSettings_supply (v : Settings) : (s.setSettings v).supply = s.supply := rfl
@[simp] theorem State.setSettings_lines (v : Settings) : (s.setSettings v).lines = s.lines := rfl
@[simp] theorem State.setSettings_rail (v : Settings) : (s.setSettings v).rail = s.rail := rfl
@[simp] theorem State.setSettings_railAsks (v : Settings) : (s.setSettings v).railAsks = s.railAsks := rfl
@[simp] theorem State.setSettings_trackers (v : Settings) : (s.setSettings v).trackers = s.trackers := rfl
@[simp] theorem State.setSettings_frozen (v : Settings) : (s.setSettings v).frozen = s.frozen := rfl
@[simp] theorem State.setSettings_schedules (v : Settings) : (s.setSettings v).schedules = s.schedules := rfl
@[simp] theorem State.setSettings_outputs (v : Settings) : (s.setSettings v).outputs = s.outputs := rfl
@[simp] theorem State.setSettings_silence (v : Settings) : (s.setSettings v).silence = s.silence := rfl
@[simp] theorem State.setSettings_arbiter (v : Settings) : (s.setSettings v).arbiter = s.arbiter := rfl
@[simp] theorem State.setSettings_mains (v : Settings) : (s.setSettings v).mains = s.mains := rfl
@[simp] theorem State.setSettings_alwaysOn (v : Settings) : (s.setSettings v).alwaysOn = s.alwaysOn := rfl
@[simp] theorem State.setSettings_array (v : Settings) : (s.setSettings v).array = s.array := rfl
@[simp] theorem State.setSettings_writer (v : Settings) : (s.setSettings v).writer = s.writer := rfl
@[simp] theorem State.setSettings_capture (v : Settings) : (s.setSettings v).capture = s.capture := rfl
@[simp] theorem State.setSettings_scan (v : Settings) : (s.setSettings v).scan = s.scan := rfl
@[simp] theorem State.setSettings_scrub (v : Settings) : (s.setSettings v).scrub = s.scrub := rfl
@[simp] theorem State.setSettings_link (v : Settings) : (s.setSettings v).link = s.link := rfl
@[simp] theorem State.setSettings_settings (v : Settings) : (s.setSettings v).settings = v := rfl
@[simp] theorem State.setSettings_defaulted (v : Settings) : (s.setSettings v).defaulted = s.defaulted := rfl

/-! ## defaulted -/

@[simp] theorem State.setDefaulted_pending (v : Bool) : (s.setDefaulted v).pending = s.pending := rfl
@[simp] theorem State.setDefaulted_supply (v : Bool) : (s.setDefaulted v).supply = s.supply := rfl
@[simp] theorem State.setDefaulted_lines (v : Bool) : (s.setDefaulted v).lines = s.lines := rfl
@[simp] theorem State.setDefaulted_rail (v : Bool) : (s.setDefaulted v).rail = s.rail := rfl
@[simp] theorem State.setDefaulted_railAsks (v : Bool) : (s.setDefaulted v).railAsks = s.railAsks := rfl
@[simp] theorem State.setDefaulted_trackers (v : Bool) : (s.setDefaulted v).trackers = s.trackers := rfl
@[simp] theorem State.setDefaulted_frozen (v : Bool) : (s.setDefaulted v).frozen = s.frozen := rfl
@[simp] theorem State.setDefaulted_schedules (v : Bool) : (s.setDefaulted v).schedules = s.schedules := rfl
@[simp] theorem State.setDefaulted_outputs (v : Bool) : (s.setDefaulted v).outputs = s.outputs := rfl
@[simp] theorem State.setDefaulted_silence (v : Bool) : (s.setDefaulted v).silence = s.silence := rfl
@[simp] theorem State.setDefaulted_arbiter (v : Bool) : (s.setDefaulted v).arbiter = s.arbiter := rfl
@[simp] theorem State.setDefaulted_mains (v : Bool) : (s.setDefaulted v).mains = s.mains := rfl
@[simp] theorem State.setDefaulted_alwaysOn (v : Bool) : (s.setDefaulted v).alwaysOn = s.alwaysOn := rfl
@[simp] theorem State.setDefaulted_array (v : Bool) : (s.setDefaulted v).array = s.array := rfl
@[simp] theorem State.setDefaulted_writer (v : Bool) : (s.setDefaulted v).writer = s.writer := rfl
@[simp] theorem State.setDefaulted_capture (v : Bool) : (s.setDefaulted v).capture = s.capture := rfl
@[simp] theorem State.setDefaulted_scan (v : Bool) : (s.setDefaulted v).scan = s.scan := rfl
@[simp] theorem State.setDefaulted_scrub (v : Bool) : (s.setDefaulted v).scrub = s.scrub := rfl
@[simp] theorem State.setDefaulted_link (v : Bool) : (s.setDefaulted v).link = s.link := rfl
@[simp] theorem State.setDefaulted_settings (v : Bool) : (s.setDefaulted v).settings = s.settings := rfl
@[simp] theorem State.setDefaulted_defaulted (v : Bool) : (s.setDefaulted v).defaulted = v := rfl

/-! ## modTracker -/

@[simp] theorem State.modTracker_pending (f : Tracker → Tracker) : (s.modTracker p f).pending = s.pending := rfl
@[simp] theorem State.modTracker_supply (f : Tracker → Tracker) : (s.modTracker p f).supply = s.supply := rfl
@[simp] theorem State.modTracker_lines (f : Tracker → Tracker) : (s.modTracker p f).lines = s.lines := rfl
@[simp] theorem State.modTracker_rail (f : Tracker → Tracker) : (s.modTracker p f).rail = s.rail := rfl
@[simp] theorem State.modTracker_railAsks (f : Tracker → Tracker) : (s.modTracker p f).railAsks = s.railAsks := rfl
@[simp] theorem State.modTracker_trackers (f : Tracker → Tracker) : (s.modTracker p f).trackers = s.trackers.modify p f := rfl
@[simp] theorem State.modTracker_frozen (f : Tracker → Tracker) : (s.modTracker p f).frozen = s.frozen := rfl
@[simp] theorem State.modTracker_schedules (f : Tracker → Tracker) : (s.modTracker p f).schedules = s.schedules := rfl
@[simp] theorem State.modTracker_outputs (f : Tracker → Tracker) : (s.modTracker p f).outputs = s.outputs := rfl
@[simp] theorem State.modTracker_silence (f : Tracker → Tracker) : (s.modTracker p f).silence = s.silence := rfl
@[simp] theorem State.modTracker_arbiter (f : Tracker → Tracker) : (s.modTracker p f).arbiter = s.arbiter := rfl
@[simp] theorem State.modTracker_mains (f : Tracker → Tracker) : (s.modTracker p f).mains = s.mains := rfl
@[simp] theorem State.modTracker_alwaysOn (f : Tracker → Tracker) : (s.modTracker p f).alwaysOn = s.alwaysOn := rfl
@[simp] theorem State.modTracker_array (f : Tracker → Tracker) : (s.modTracker p f).array = s.array := rfl
@[simp] theorem State.modTracker_writer (f : Tracker → Tracker) : (s.modTracker p f).writer = s.writer := rfl
@[simp] theorem State.modTracker_capture (f : Tracker → Tracker) : (s.modTracker p f).capture = s.capture := rfl
@[simp] theorem State.modTracker_scan (f : Tracker → Tracker) : (s.modTracker p f).scan = s.scan := rfl
@[simp] theorem State.modTracker_scrub (f : Tracker → Tracker) : (s.modTracker p f).scrub = s.scrub := rfl
@[simp] theorem State.modTracker_link (f : Tracker → Tracker) : (s.modTracker p f).link = s.link := rfl
@[simp] theorem State.modTracker_settings (f : Tracker → Tracker) : (s.modTracker p f).settings = s.settings := rfl
@[simp] theorem State.modTracker_defaulted (f : Tracker → Tracker) : (s.modTracker p f).defaulted = s.defaulted := rfl

/-! ## modSchedule -/

@[simp] theorem State.modSchedule_pending (f : Schedule → Schedule) : (s.modSchedule p f).pending = s.pending := rfl
@[simp] theorem State.modSchedule_supply (f : Schedule → Schedule) : (s.modSchedule p f).supply = s.supply := rfl
@[simp] theorem State.modSchedule_lines (f : Schedule → Schedule) : (s.modSchedule p f).lines = s.lines := rfl
@[simp] theorem State.modSchedule_rail (f : Schedule → Schedule) : (s.modSchedule p f).rail = s.rail := rfl
@[simp] theorem State.modSchedule_railAsks (f : Schedule → Schedule) : (s.modSchedule p f).railAsks = s.railAsks := rfl
@[simp] theorem State.modSchedule_trackers (f : Schedule → Schedule) : (s.modSchedule p f).trackers = s.trackers := rfl
@[simp] theorem State.modSchedule_frozen (f : Schedule → Schedule) : (s.modSchedule p f).frozen = s.frozen := rfl
@[simp] theorem State.modSchedule_schedules (f : Schedule → Schedule) : (s.modSchedule p f).schedules = s.schedules.modify p f := rfl
@[simp] theorem State.modSchedule_outputs (f : Schedule → Schedule) : (s.modSchedule p f).outputs = s.outputs := rfl
@[simp] theorem State.modSchedule_silence (f : Schedule → Schedule) : (s.modSchedule p f).silence = s.silence := rfl
@[simp] theorem State.modSchedule_arbiter (f : Schedule → Schedule) : (s.modSchedule p f).arbiter = s.arbiter := rfl
@[simp] theorem State.modSchedule_mains (f : Schedule → Schedule) : (s.modSchedule p f).mains = s.mains := rfl
@[simp] theorem State.modSchedule_alwaysOn (f : Schedule → Schedule) : (s.modSchedule p f).alwaysOn = s.alwaysOn := rfl
@[simp] theorem State.modSchedule_array (f : Schedule → Schedule) : (s.modSchedule p f).array = s.array := rfl
@[simp] theorem State.modSchedule_writer (f : Schedule → Schedule) : (s.modSchedule p f).writer = s.writer := rfl
@[simp] theorem State.modSchedule_capture (f : Schedule → Schedule) : (s.modSchedule p f).capture = s.capture := rfl
@[simp] theorem State.modSchedule_scan (f : Schedule → Schedule) : (s.modSchedule p f).scan = s.scan := rfl
@[simp] theorem State.modSchedule_scrub (f : Schedule → Schedule) : (s.modSchedule p f).scrub = s.scrub := rfl
@[simp] theorem State.modSchedule_link (f : Schedule → Schedule) : (s.modSchedule p f).link = s.link := rfl
@[simp] theorem State.modSchedule_settings (f : Schedule → Schedule) : (s.modSchedule p f).settings = s.settings := rfl
@[simp] theorem State.modSchedule_defaulted (f : Schedule → Schedule) : (s.modSchedule p f).defaulted = s.defaulted := rfl

/-! ## modOutput -/

@[simp] theorem State.modOutput_pending (f : Outputs → Outputs) : (s.modOutput p f).pending = s.pending := rfl
@[simp] theorem State.modOutput_supply (f : Outputs → Outputs) : (s.modOutput p f).supply = s.supply := rfl
@[simp] theorem State.modOutput_lines (f : Outputs → Outputs) : (s.modOutput p f).lines = s.lines := rfl
@[simp] theorem State.modOutput_rail (f : Outputs → Outputs) : (s.modOutput p f).rail = s.rail := rfl
@[simp] theorem State.modOutput_railAsks (f : Outputs → Outputs) : (s.modOutput p f).railAsks = s.railAsks := rfl
@[simp] theorem State.modOutput_trackers (f : Outputs → Outputs) : (s.modOutput p f).trackers = s.trackers := rfl
@[simp] theorem State.modOutput_frozen (f : Outputs → Outputs) : (s.modOutput p f).frozen = s.frozen := rfl
@[simp] theorem State.modOutput_schedules (f : Outputs → Outputs) : (s.modOutput p f).schedules = s.schedules := rfl
@[simp] theorem State.modOutput_outputs (f : Outputs → Outputs) : (s.modOutput p f).outputs = s.outputs.modify p f := rfl
@[simp] theorem State.modOutput_silence (f : Outputs → Outputs) : (s.modOutput p f).silence = s.silence := rfl
@[simp] theorem State.modOutput_arbiter (f : Outputs → Outputs) : (s.modOutput p f).arbiter = s.arbiter := rfl
@[simp] theorem State.modOutput_mains (f : Outputs → Outputs) : (s.modOutput p f).mains = s.mains := rfl
@[simp] theorem State.modOutput_alwaysOn (f : Outputs → Outputs) : (s.modOutput p f).alwaysOn = s.alwaysOn := rfl
@[simp] theorem State.modOutput_array (f : Outputs → Outputs) : (s.modOutput p f).array = s.array := rfl
@[simp] theorem State.modOutput_writer (f : Outputs → Outputs) : (s.modOutput p f).writer = s.writer := rfl
@[simp] theorem State.modOutput_capture (f : Outputs → Outputs) : (s.modOutput p f).capture = s.capture := rfl
@[simp] theorem State.modOutput_scan (f : Outputs → Outputs) : (s.modOutput p f).scan = s.scan := rfl
@[simp] theorem State.modOutput_scrub (f : Outputs → Outputs) : (s.modOutput p f).scrub = s.scrub := rfl
@[simp] theorem State.modOutput_link (f : Outputs → Outputs) : (s.modOutput p f).link = s.link := rfl
@[simp] theorem State.modOutput_settings (f : Outputs → Outputs) : (s.modOutput p f).settings = s.settings := rfl
@[simp] theorem State.modOutput_defaulted (f : Outputs → Outputs) : (s.modOutput p f).defaulted = s.defaulted := rfl

/-! ## modLine -/

@[simp] theorem State.modLine_pending (f : Lines → Lines) : (s.modLine p f).pending = s.pending := rfl
@[simp] theorem State.modLine_supply (f : Lines → Lines) : (s.modLine p f).supply = s.supply := rfl
@[simp] theorem State.modLine_lines (f : Lines → Lines) : (s.modLine p f).lines = s.lines.modify p f := rfl
@[simp] theorem State.modLine_rail (f : Lines → Lines) : (s.modLine p f).rail = s.rail := rfl
@[simp] theorem State.modLine_railAsks (f : Lines → Lines) : (s.modLine p f).railAsks = s.railAsks := rfl
@[simp] theorem State.modLine_trackers (f : Lines → Lines) : (s.modLine p f).trackers = s.trackers := rfl
@[simp] theorem State.modLine_frozen (f : Lines → Lines) : (s.modLine p f).frozen = s.frozen := rfl
@[simp] theorem State.modLine_schedules (f : Lines → Lines) : (s.modLine p f).schedules = s.schedules := rfl
@[simp] theorem State.modLine_outputs (f : Lines → Lines) : (s.modLine p f).outputs = s.outputs := rfl
@[simp] theorem State.modLine_silence (f : Lines → Lines) : (s.modLine p f).silence = s.silence := rfl
@[simp] theorem State.modLine_arbiter (f : Lines → Lines) : (s.modLine p f).arbiter = s.arbiter := rfl
@[simp] theorem State.modLine_mains (f : Lines → Lines) : (s.modLine p f).mains = s.mains := rfl
@[simp] theorem State.modLine_alwaysOn (f : Lines → Lines) : (s.modLine p f).alwaysOn = s.alwaysOn := rfl
@[simp] theorem State.modLine_array (f : Lines → Lines) : (s.modLine p f).array = s.array := rfl
@[simp] theorem State.modLine_writer (f : Lines → Lines) : (s.modLine p f).writer = s.writer := rfl
@[simp] theorem State.modLine_capture (f : Lines → Lines) : (s.modLine p f).capture = s.capture := rfl
@[simp] theorem State.modLine_scan (f : Lines → Lines) : (s.modLine p f).scan = s.scan := rfl
@[simp] theorem State.modLine_scrub (f : Lines → Lines) : (s.modLine p f).scrub = s.scrub := rfl
@[simp] theorem State.modLine_link (f : Lines → Lines) : (s.modLine p f).link = s.link := rfl
@[simp] theorem State.modLine_settings (f : Lines → Lines) : (s.modLine p f).settings = s.settings := rfl
@[simp] theorem State.modLine_defaulted (f : Lines → Lines) : (s.modLine p f).defaulted = s.defaulted := rfl

/-! ## modStall and setActive -/

@[simp] theorem State.modStall_pending (f : StallTimer → StallTimer) : (s.modStall p f).pending = s.pending := rfl
@[simp] theorem State.modStall_supply (f : StallTimer → StallTimer) : (s.modStall p f).supply = s.supply := rfl
@[simp] theorem State.modStall_lines (f : StallTimer → StallTimer) : (s.modStall p f).lines = s.lines := rfl
@[simp] theorem State.modStall_rail (f : StallTimer → StallTimer) : (s.modStall p f).rail = s.rail := rfl
@[simp] theorem State.modStall_railAsks (f : StallTimer → StallTimer) : (s.modStall p f).railAsks = s.railAsks := rfl
@[simp] theorem State.modStall_trackers (f : StallTimer → StallTimer) : (s.modStall p f).trackers = s.trackers := rfl
@[simp] theorem State.modStall_frozen (f : StallTimer → StallTimer) : (s.modStall p f).frozen = s.frozen := rfl
@[simp] theorem State.modStall_schedules (f : StallTimer → StallTimer) : (s.modStall p f).schedules = s.schedules := rfl
@[simp] theorem State.modStall_outputs (f : StallTimer → StallTimer) : (s.modStall p f).outputs = s.outputs := rfl
@[simp] theorem State.modStall_silence (f : StallTimer → StallTimer) : (s.modStall p f).silence = s.silence := rfl
@[simp] theorem State.modStall_arbiter (f : StallTimer → StallTimer) : (s.modStall p f).arbiter = s.arbiter := rfl
@[simp] theorem State.modStall_mains (f : StallTimer → StallTimer) : (s.modStall p f).mains = s.mains := rfl
@[simp] theorem State.modStall_array (f : StallTimer → StallTimer) : (s.modStall p f).array = s.array := rfl
@[simp] theorem State.modStall_writer (f : StallTimer → StallTimer) : (s.modStall p f).writer = s.writer := rfl
@[simp] theorem State.modStall_capture (f : StallTimer → StallTimer) : (s.modStall p f).capture = s.capture := rfl
@[simp] theorem State.modStall_scan (f : StallTimer → StallTimer) : (s.modStall p f).scan = s.scan := rfl
@[simp] theorem State.modStall_scrub (f : StallTimer → StallTimer) : (s.modStall p f).scrub = s.scrub := rfl
@[simp] theorem State.modStall_link (f : StallTimer → StallTimer) : (s.modStall p f).link = s.link := rfl
@[simp] theorem State.modStall_settings (f : StallTimer → StallTimer) : (s.modStall p f).settings = s.settings := rfl
@[simp] theorem State.modStall_defaulted (f : StallTimer → StallTimer) : (s.modStall p f).defaulted = s.defaulted := rfl
@[simp] theorem State.modStall_alwaysOn (f : StallTimer → StallTimer) :
    (s.modStall p f).alwaysOn = { s.alwaysOn with timers := s.alwaysOn.timers.modify p f } := rfl

@[simp] theorem State.setActive_pending (v : Bool) : (s.setActive p v).pending = s.pending := rfl
@[simp] theorem State.setActive_supply (v : Bool) : (s.setActive p v).supply = s.supply := rfl
@[simp] theorem State.setActive_lines (v : Bool) : (s.setActive p v).lines = s.lines := rfl
@[simp] theorem State.setActive_rail (v : Bool) : (s.setActive p v).rail = s.rail := rfl
@[simp] theorem State.setActive_railAsks (v : Bool) : (s.setActive p v).railAsks = s.railAsks := rfl
@[simp] theorem State.setActive_trackers (v : Bool) : (s.setActive p v).trackers = s.trackers := rfl
@[simp] theorem State.setActive_frozen (v : Bool) : (s.setActive p v).frozen = s.frozen := rfl
@[simp] theorem State.setActive_schedules (v : Bool) : (s.setActive p v).schedules = s.schedules := rfl
@[simp] theorem State.setActive_outputs (v : Bool) : (s.setActive p v).outputs = s.outputs := rfl
@[simp] theorem State.setActive_silence (v : Bool) : (s.setActive p v).silence = s.silence := rfl
@[simp] theorem State.setActive_arbiter (v : Bool) : (s.setActive p v).arbiter = s.arbiter := rfl
@[simp] theorem State.setActive_mains (v : Bool) : (s.setActive p v).mains = s.mains := rfl
@[simp] theorem State.setActive_array (v : Bool) : (s.setActive p v).array = s.array := rfl
@[simp] theorem State.setActive_writer (v : Bool) : (s.setActive p v).writer = s.writer := rfl
@[simp] theorem State.setActive_capture (v : Bool) : (s.setActive p v).capture = s.capture := rfl
@[simp] theorem State.setActive_scan (v : Bool) : (s.setActive p v).scan = s.scan := rfl
@[simp] theorem State.setActive_scrub (v : Bool) : (s.setActive p v).scrub = s.scrub := rfl
@[simp] theorem State.setActive_link (v : Bool) : (s.setActive p v).link = s.link := rfl
@[simp] theorem State.setActive_settings (v : Bool) : (s.setActive p v).settings = s.settings := rfl
@[simp] theorem State.setActive_defaulted (v : Bool) : (s.setActive p v).defaulted = s.defaulted := rfl
@[simp] theorem State.setActive_alwaysOn (v : Bool) :
    (s.setActive p v).alwaysOn = { s.alwaysOn with active := s.alwaysOn.active.set p v } := rfl

@[simp] theorem State.setSlot_pending (i : Nat) (v : Slot) : (s.setSlot i v).pending = s.pending := rfl
@[simp] theorem State.setSlot_supply (i : Nat) (v : Slot) : (s.setSlot i v).supply = s.supply := rfl
@[simp] theorem State.setSlot_lines (i : Nat) (v : Slot) : (s.setSlot i v).lines = s.lines := rfl
@[simp] theorem State.setSlot_rail (i : Nat) (v : Slot) : (s.setSlot i v).rail = s.rail := rfl
@[simp] theorem State.setSlot_railAsks (i : Nat) (v : Slot) : (s.setSlot i v).railAsks = s.railAsks := rfl
@[simp] theorem State.setSlot_trackers (i : Nat) (v : Slot) : (s.setSlot i v).trackers = s.trackers := rfl
@[simp] theorem State.setSlot_frozen (i : Nat) (v : Slot) : (s.setSlot i v).frozen = s.frozen := rfl
@[simp] theorem State.setSlot_schedules (i : Nat) (v : Slot) : (s.setSlot i v).schedules = s.schedules := rfl
@[simp] theorem State.setSlot_outputs (i : Nat) (v : Slot) : (s.setSlot i v).outputs = s.outputs := rfl
@[simp] theorem State.setSlot_silence (i : Nat) (v : Slot) : (s.setSlot i v).silence = s.silence := rfl
@[simp] theorem State.setSlot_arbiter (i : Nat) (v : Slot) : (s.setSlot i v).arbiter = s.arbiter := rfl
@[simp] theorem State.setSlot_mains (i : Nat) (v : Slot) : (s.setSlot i v).mains = s.mains := rfl
@[simp] theorem State.setSlot_alwaysOn (i : Nat) (v : Slot) : (s.setSlot i v).alwaysOn = s.alwaysOn := rfl
@[simp] theorem State.setSlot_writer (i : Nat) (v : Slot) : (s.setSlot i v).writer = s.writer := rfl
@[simp] theorem State.setSlot_capture (i : Nat) (v : Slot) : (s.setSlot i v).capture = s.capture := rfl
@[simp] theorem State.setSlot_scan (i : Nat) (v : Slot) : (s.setSlot i v).scan = s.scan := rfl
@[simp] theorem State.setSlot_scrub (i : Nat) (v : Slot) : (s.setSlot i v).scrub = s.scrub := rfl
@[simp] theorem State.setSlot_link (i : Nat) (v : Slot) : (s.setSlot i v).link = s.link := rfl
@[simp] theorem State.setSlot_settings (i : Nat) (v : Slot) : (s.setSlot i v).settings = s.settings := rfl
@[simp] theorem State.setSlot_defaulted (i : Nat) (v : Slot) : (s.setSlot i v).defaulted = s.defaulted := rfl
@[simp] theorem State.setSlot_array (i : Nat) (v : Slot) : (s.setSlot i v).array = s.array.setSlot i v := rfl

/-! ## Reads of one pocket after an update -/

@[simp] theorem State.tracker_modTracker (f : Tracker → Tracker) : (s.modTracker p f).tracker p = f (s.tracker p) := by
  cases p <;> rfl
@[simp] theorem State.schedule_modSchedule (f : Schedule → Schedule) :
    (s.modSchedule p f).schedule p = f (s.schedule p) := by cases p <;> rfl
@[simp] theorem State.output_modOutput (f : Outputs → Outputs) : (s.modOutput p f).output p = f (s.output p) := by
  cases p <;> rfl
@[simp] theorem State.line_modLine (f : Lines → Lines) : (s.modLine p f).line p = f (s.line p) := by cases p <;> rfl
@[simp] theorem State.stall_modStall (f : StallTimer → StallTimer) : (s.modStall p f).stall p = f (s.stall p) := by
  cases p <;> rfl

variable {p} {q : Pocket}

theorem State.tracker_modTracker_ne (f : Tracker → Tracker) (h : q ≠ p) :
    (s.modTracker p f).tracker q = s.tracker q := Pair.get_modify_ne _ _ h
theorem State.schedule_modSchedule_ne (f : Schedule → Schedule) (h : q ≠ p) :
    (s.modSchedule p f).schedule q = s.schedule q := Pair.get_modify_ne _ _ h
theorem State.output_modOutput_ne (f : Outputs → Outputs) (h : q ≠ p) :
    (s.modOutput p f).output q = s.output q := Pair.get_modify_ne _ _ h
theorem State.line_modLine_ne (f : Lines → Lines) (h : q ≠ p) :
    (s.modLine p f).line q = s.line q := Pair.get_modify_ne _ _ h
theorem State.stall_modStall_ne (f : StallTimer → StallTimer) (h : q ≠ p) :
    (s.modStall p f).stall q = s.stall q := Pair.get_modify_ne _ _ h

/-- Two states with the same trackers have the same tracker of a pocket. -/
theorem State.tracker_congr {s t : State} (h : t.trackers = s.trackers) (p : Pocket) : t.tracker p = s.tracker p := by
  unfold State.tracker; rw [h]
theorem State.schedule_congr {s t : State} (h : t.schedules = s.schedules) (p : Pocket) :
    t.schedule p = s.schedule p := by unfold State.schedule; rw [h]
theorem State.output_congr {s t : State} (h : t.outputs = s.outputs) (p : Pocket) : t.output p = s.output p := by
  unfold State.output; rw [h]
theorem State.line_congr {s t : State} (h : t.lines = s.lines) (p : Pocket) : t.line p = s.line p := by
  unfold State.line; rw [h]

end Sys2Proof.Machine
end

