-- ==== Sys2Proof/Laws/Array.lean ====
section
/-! SUPPORT. The retention array's one canonical form, and reading a slot after a write of it or of another (R98). -/

namespace Sys2Proof.Machine

/-- The canonical form from a later slot number on is the form from an earlier one on. -/
theorem cellsFrom_mono {l m : Nat} (h : l ≤ m) : ∀ {cells : List (Nat × Slot)}, cellsFrom m cells = true →
    cellsFrom l cells = true
  | [], _ => rfl
  | (k, v) :: rest, hc => by
    simp only [cellsFrom, Bool.and_eq_true, decide_eq_true_eq] at hc ⊢
    exact ⟨⟨⟨by omega, hc.1.1.2⟩, hc.1.2⟩, hc.2⟩

/-- A write keeps the canonical form. -/
theorem writeCell_cellsFrom {i : Nat} (v : Slot) (hi : i < Config.slotCount) : ∀ {low : Nat} {cells : List (Nat × Slot)},
    low ≤ i → cellsFrom low cells = true → cellsFrom low (writeCell cells i v) = true
  | low, [], hl, _ => by
    unfold writeCell
    split
    · rfl
    · simp only [cellsFrom, Bool.and_eq_true, decide_eq_true_eq, and_true]
      exact ⟨⟨hl, hi⟩, ‹_›⟩
  | low, (k, w) :: rest, hl, hc => by
    have hc' := hc
    simp only [cellsFrom, Bool.and_eq_true, decide_eq_true_eq] at hc'
    obtain ⟨⟨⟨h1, h2⟩, h3⟩, h4⟩ := hc'
    unfold writeCell
    split
    · split
      · exact hc
      · simp only [cellsFrom, Bool.and_eq_true, decide_eq_true_eq]
        exact ⟨⟨⟨hl, hi⟩, ‹_›⟩, ⟨⟨by omega, h2⟩, h3⟩, h4⟩
    · split
      · split
        · exact cellsFrom_mono (by omega) h4
        · simp only [cellsFrom, Bool.and_eq_true, decide_eq_true_eq]
          exact ⟨⟨⟨hl, hi⟩, ‹_›⟩, by subst i; exact h4⟩
      · simp only [cellsFrom, Bool.and_eq_true, decide_eq_true_eq]
        exact ⟨⟨⟨h1, h2⟩, h3⟩, writeCell_cellsFrom v hi (by omega) h4⟩

/-- A slot below the lowest listed one reads as delivered. -/
theorem readCell_below {i : Nat} : ∀ {low : Nat} {cells : List (Nat × Slot)}, i < low → cellsFrom low cells = true →
    readCell cells i = deliveredSlot
  | _, [], _, _ => rfl
  | low, (k, v) :: rest, h, hc => by
    simp only [cellsFrom, Bool.and_eq_true, decide_eq_true_eq] at hc
    unfold readCell
    rw [if_neg (by omega)]
    exact readCell_below (by omega : i < k + 1) hc.2

/-- A slot reads as it was written. -/
theorem readCell_writeCell_self {i : Nat} (v : Slot) : ∀ {low : Nat} {cells : List (Nat × Slot)},
    cellsFrom low cells = true → readCell (writeCell cells i v) i = v
  | _, [], _ => by
    unfold writeCell
    split
    · simp_all [readCell]
    · simp [readCell]
  | low, (k, w) :: rest, hc => by
    simp only [cellsFrom, Bool.and_eq_true, decide_eq_true_eq] at hc
    unfold writeCell
    split
    · split
      · rename_i h1 h2
        rw [h2]
        unfold readCell
        rw [if_neg (by omega)]
        exact readCell_below (by omega : i < k + 1) hc.2
      · simp [readCell]
    · split
      · split
        · rename_i h1 h2 h3
          rw [h3]
          exact readCell_below (by omega : i < k + 1) hc.2
        · simp [readCell]
      · rename_i h1 h2
        unfold readCell
        rw [if_neg (Ne.symm h2)]
        exact readCell_writeCell_self v hc.2

/-- A write leaves every other slot as it was. -/
theorem readCell_writeCell_other {i j : Nat} (v : Slot) (h : j ≠ i) : ∀ (cells : List (Nat × Slot)),
    readCell (writeCell cells i v) j = readCell cells j
  | [] => by
    unfold writeCell
    split
    · rfl
    · simp [readCell, Ne.symm h]
  | (k, w) :: rest => by
    unfold writeCell
    split
    · split
      · rfl
      · rw [readCell, if_neg (Ne.symm h)]
    · split
      · rename_i h1 h2
        subst h2
        split
        · rw [readCell, if_neg (Ne.symm h)]
        · simp [readCell, Ne.symm h]
      · unfold readCell
        split
        · rfl
        · exact readCell_writeCell_other v h rest

/-- Writing a slot keeps the array's canonical form. -/
theorem RetentionArray.setSlot_wf {r : RetentionArray} (i : Nat) (v : Slot) (h : r.wf = true) : (r.setSlot i v).wf = true := by
  unfold RetentionArray.setSlot
  split
  · exact writeCell_cellsFrom v ‹_› (Nat.zero_le _) h
  · exact h

/-- Writing a slot of the state keeps the array's canonical form. -/
theorem State.setSlot_wf {s : State} (i : Nat) (v : Slot) (h : s.array.wf = true) : (s.setSlot i v).array.wf = true :=
  RetentionArray.setSlot_wf i v h

/-- A slot of the array reads as it was written. -/
theorem State.slot_setSlot_self {s : State} {i : Nat} (v : Slot) (hi : i < 96) (h : s.array.wf = true) :
    (s.setSlot i v).slot i = v := by
  have : (s.setSlot i v).slot i = readCell (writeCell s.array.slots i v) i := by
    simp [State.setSlot, State.slot, RetentionArray.setSlot, Config.slotCount, hi, State.setArray]
  rw [this]
  exact readCell_writeCell_self v h

/-- A write leaves every other slot as it was. -/
theorem State.slot_setSlot_other {s : State} {i j : Nat} (v : Slot) (h : j ≠ i) : (s.setSlot i v).slot j = s.slot j := by
  unfold State.setSlot State.slot RetentionArray.setSlot
  split
  · exact readCell_writeCell_other v h _
  · rfl

/-- The array is in its canonical form at reset. -/
theorem reset_array_wf : State.reset.array.wf = true := by decide

end Sys2Proof.Machine
end

