-- ==== Sys2Proof/Laws/Keeps.lean ====
section
/-! SUPPORT. What each shared operation can change, said once: the fields it leaves alone. -/

namespace Sys2Proof.Machine

variable {l m : List Part} {s t u : State}

/-! ## The frame relation -/

theorem KeepsBut.refl (l : List Part) (s : State) : KeepsBut l s s := by intro q _; cases q <;> rfl

theorem KeepsBut.trans (h : KeepsBut l s t) (k : KeepsBut l t u) : KeepsBut l s u := by
  intro q hq
  have a := h q hq
  have b := k q hq
  cases q <;> exact Eq.trans b a

theorem KeepsBut.mono (h : KeepsBut l s t) (hl : ∀ q ∈ l, q ∈ m) : KeepsBut m s t :=
  fun q hq => h q fun hq' => hq (hl q hq')

/-- A frame between the results of two alternatives. -/
theorem KeepsBut.ite {c : Prop} [Decidable c] (h : c → KeepsBut l s t) (k : ¬ c → KeepsBut l s u) :
    KeepsBut l s (if c then t else u) := by
  by_cases hc : c
  · rw [if_pos hc]; exact h hc
  · rw [if_neg hc]; exact k hc

theorem keeps_setPending (v : List Instr) (h : Part.pending ∈ l) : KeepsBut l s (s.setPending v) := by
  intro q hq; cases q <;> first | rfl | exact absurd h hq
theorem keeps_setSupply (v : Supply) (h : Part.supply ∈ l) : KeepsBut l s (s.setSupply v) := by
  intro q hq; cases q <;> first | rfl | exact absurd h hq
theorem keeps_setLines (v : Pair Lines) (h : Part.lines ∈ l) : KeepsBut l s (s.setLines v) := by
  intro q hq; cases q <;> first | rfl | exact absurd h hq
theorem keeps_setRail (v : Bool) (h : Part.rail ∈ l) : KeepsBut l s (s.setRail v) := by
  intro q hq; cases q <;> first | rfl | exact absurd h hq
theorem keeps_setRailAsks (v : Nat) (h : Part.railAsks ∈ l) : KeepsBut l s (s.setRailAsks v) := by
  intro q hq; cases q <;> first | rfl | exact absurd h hq
/-- The free value of the rail changes the rail and the count of its askings alone. -/
theorem senseRail_keeps (s : State) : KeepsBut [.rail, .railAsks] s (senseRail s) :=
  (keeps_setRail _ (by decide)).trans (keeps_setRailAsks _ (by decide))
theorem keeps_setTrackers (v : Pair Tracker) (h : Part.trackers ∈ l) : KeepsBut l s (s.setTrackers v) := by
  intro q hq; cases q <;> first | rfl | exact absurd h hq
theorem keeps_setFrozen (v : Bool) (h : Part.frozen ∈ l) : KeepsBut l s (s.setFrozen v) := by
  intro q hq; cases q <;> first | rfl | exact absurd h hq
theorem keeps_setSchedules (v : Pair Schedule) (h : Part.schedules ∈ l) : KeepsBut l s (s.setSchedules v) := by
  intro q hq; cases q <;> first | rfl | exact absurd h hq
theorem keeps_setOutputs (v : Pair Outputs) (h : Part.outputs ∈ l) : KeepsBut l s (s.setOutputs v) := by
  intro q hq; cases q <;> first | rfl | exact absurd h hq
theorem keeps_setSilence (v : Silence) (h : Part.silence ∈ l) : KeepsBut l s (s.setSilence v) := by
  intro q hq; cases q <;> first | rfl | exact absurd h hq
theorem keeps_setArbiter (v : Arbiter) (h : Part.arbiter ∈ l) : KeepsBut l s (s.setArbiter v) := by
  intro q hq; cases q <;> first | rfl | exact absurd h hq
theorem keeps_setMains (v : Mains) (h : Part.mains ∈ l) : KeepsBut l s (s.setMains v) := by
  intro q hq; cases q <;> first | rfl | exact absurd h hq
theorem keeps_setAlwaysOn (v : AlwaysOn) (h : Part.alwaysOn ∈ l) : KeepsBut l s (s.setAlwaysOn v) := by
  intro q hq; cases q <;> first | rfl | exact absurd h hq
theorem keeps_setArray (v : RetentionArray) (h : Part.array ∈ l) : KeepsBut l s (s.setArray v) := by
  intro q hq; cases q <;> first | rfl | exact absurd h hq
theorem keeps_setWriter (v : Writer) (h : Part.writer ∈ l) : KeepsBut l s (s.setWriter v) := by
  intro q hq; cases q <;> first | rfl | exact absurd h hq
theorem keeps_setCapture (v : Capture) (h : Part.capture ∈ l) : KeepsBut l s (s.setCapture v) := by
  intro q hq; cases q <;> first | rfl | exact absurd h hq
theorem keeps_setScan (v : Scan) (h : Part.scan ∈ l) : KeepsBut l s (s.setScan v) := by
  intro q hq; cases q <;> first | rfl | exact absurd h hq
theorem keeps_setScrub (v : Scrub) (h : Part.scrub ∈ l) : KeepsBut l s (s.setScrub v) := by
  intro q hq; cases q <;> first | rfl | exact absurd h hq
theorem keeps_setLink (v : Link) (h : Part.link ∈ l) : KeepsBut l s (s.setLink v) := by
  intro q hq; cases q <;> first | rfl | exact absurd h hq
theorem keeps_setSettings (v : Settings) (h : Part.settings ∈ l) : KeepsBut l s (s.setSettings v) := by
  intro q hq; cases q <;> first | rfl | exact absurd h hq
theorem keeps_setDefaulted (v : Bool) (h : Part.defaulted ∈ l) : KeepsBut l s (s.setDefaulted v) := by
  intro q hq; cases q <;> first | rfl | exact absurd h hq
theorem keeps_modTracker (p : Pocket) (f : Tracker → Tracker) (h : Part.trackers ∈ l) : KeepsBut l s (s.modTracker p f) := by
  intro q hq; cases q <;> first | rfl | exact absurd h hq
theorem keeps_modSchedule (p : Pocket) (f : Schedule → Schedule) (h : Part.schedules ∈ l) : KeepsBut l s (s.modSchedule p f) := by
  intro q hq; cases q <;> first | rfl | exact absurd h hq
theorem keeps_modOutput (p : Pocket) (f : Outputs → Outputs) (h : Part.outputs ∈ l) : KeepsBut l s (s.modOutput p f) := by
  intro q hq; cases q <;> first | rfl | exact absurd h hq
theorem keeps_modLine (p : Pocket) (f : Lines → Lines) (h : Part.lines ∈ l) : KeepsBut l s (s.modLine p f) := by
  intro q hq; cases q <;> first | rfl | exact absurd h hq
theorem keeps_modStall (p : Pocket) (f : StallTimer → StallTimer) (h : Part.alwaysOn ∈ l) : KeepsBut l s (s.modStall p f) := by
  intro q hq; cases q <;> first | rfl | exact absurd h hq
theorem keeps_setActive (p : Pocket) (v : Bool) (h : Part.alwaysOn ∈ l) : KeepsBut l s (s.setActive p v) := by
  intro q hq; cases q <;> first | rfl | exact absurd h hq
theorem keeps_setSlot (i : Nat) (v : Slot) (h : Part.array ∈ l) : KeepsBut l s (s.setSlot i v) := by
  intro q hq; cases q <;> first | rfl | exact absurd h hq

theorem keeps_forPockets {f : Pocket → State → State} (h : ∀ p s, KeepsBut l s (f p s)) (s : State) :
    KeepsBut l s (forPockets f s) := (h .a s).trans (h .b _)

theorem keeps_foldl {α : Type} {f : State → α → State} (h : ∀ s a, KeepsBut l s (f s a)) (as : List α) (s : State) :
    KeepsBut l s (as.foldl f s) := by
  induction as generalizing s with
  | nil => exact .refl _ _
  | cons a as ih => exact (h s a).trans (ih _)

end Sys2Proof.Machine
end

