-- ==== Sys2Proof/Laws/Frames.lean ====
section
/-! SUPPORT. The frame of every shared operation, up to the writer's service. -/

namespace Sys2Proof.Machine

/-- What the outputs and the arbiter can change. -/
abbrev loadParts : List Part := [.outputs, .arbiter, .schedules]

/-- What entering a pocket state can change. -/
abbrev entryParts : List Part := [.trackers, .schedules, .outputs, .alwaysOn]

/-- What the trackers can change. -/
abbrev cycleParts : List Part := [.trackers, .schedules, .outputs, .alwaysOn, .capture, .link, .arbiter, .writer]

/-- What the writer's service can change. -/
abbrev serveParts : List Part :=
  [.trackers, .schedules, .outputs, .alwaysOn, .capture, .link, .arbiter, .writer, .mains, .scan, .scrub]

/-! ## The arbiter and the outputs -/

theorem revokeStages_keeps (r : List Load) (s : State) : KeepsBut [.outputs, .arbiter] s (revokeStages r s) :=
  (keeps_foldl (fun _ _ => keeps_modOutput _ _ (by decide)) r s).trans (keeps_setArbiter _ (by decide))

theorem revokeAllStages_keeps (s : State) : KeepsBut [.outputs, .arbiter] s (revokeAllStages s) := revokeStages_keeps _ s

theorem airflowAtTurnOn_keeps (p : Pocket) (s : State) : KeepsBut [.outputs] s (airflowAtTurnOn p s) :=
  keeps_modOutput _ _ (by decide)

theorem startTumble_keeps (p : Pocket) (s : State) : KeepsBut [.schedules] s (startTumble p s) :=
  .ite (fun _ => keeps_modSchedule _ _ (by decide)) (fun _ => .refl _ _)

theorem turnOn_keeps (l : Load) (s : State) : KeepsBut [.outputs, .schedules] s (turnOn l s) := by
  unfold turnOn
  split
  · exact ((keeps_modOutput _ _ (by decide)).trans ((airflowAtTurnOn_keeps _ _).mono (by decide))).trans
      ((startTumble_keeps _ _).mono (by decide))
  · exact keeps_modOutput _ _ (by decide)

theorem grantLoad_keeps (l : Load) (s : State) : KeepsBut loadParts s (grantLoad l s) := by
  unfold grantLoad
  refine KeepsBut.trans (t := if l.item = .motor then revokeStages s.sheds s else s) ?_
    ((keeps_setArbiter _ (by decide)).trans ((turnOn_keeps _ _).mono (by decide)))
  exact .ite (fun _ => (revokeStages_keeps _ _).mono (by decide)) (fun _ => .refl _ _)

theorem testHead_keeps (fuel : Nat) (s : State) : KeepsBut loadParts s (testHead fuel s) := by
  induction fuel generalizing s with
  | zero => exact .refl _ _
  | succ n ih =>
    unfold testHead
    split
    · exact .refl _ _
    · exact .ite (fun _ => (grantLoad_keeps _ _).trans (ih _)) (fun _ => .refl _ _)

theorem serveArbiter_keeps (s : State) : KeepsBut loadParts s (serveArbiter s) := testHead_keeps _ s

theorem refreshAirflow_keeps (p : Pocket) (s : State) : KeepsBut [.outputs] s (refreshAirflow p s) := by
  unfold refreshAirflow
  split
  · exact .ite (fun _ => .refl _ _) (fun _ => keeps_modOutput _ _ (by decide))
  · exact .ite (fun _ => .refl _ _) (fun _ => keeps_modOutput _ _ (by decide))
  · exact .refl _ _

theorem dropLoad_keeps (l : Load) (s : State) : KeepsBut [.outputs, .arbiter] s (dropLoad l s) :=
  (keeps_modOutput _ _ (by decide)).trans (keeps_setArbiter _ (by decide))

theorem lapses_keeps (p : Pocket) (s : State) : KeepsBut [.outputs, .arbiter] s (lapses p s) := by
  have stage (i : Item) (s : State) : KeepsBut [.outputs, .arbiter] s (lapseStage i p s) :=
    .ite (fun _ => .refl _ _) (fun _ => dropLoad_keeps _ _)
  have motor (s : State) : KeepsBut [.outputs, .arbiter] s (lapseMotor p s) :=
    .ite (fun _ => .refl _ _) (fun _ => dropLoad_keeps _ _)
  exact ((((refreshAirflow_keeps p s).mono (by decide)).trans (motor _)).trans (stage _ _)).trans (stage _ _)

theorem requestLoad_keeps (l : Load) (s : State) : KeepsBut [.arbiter] s (requestLoad l s) :=
  keeps_setArbiter _ (by decide)

theorem requests_keeps (p : Pocket) (s : State) : KeepsBut [.arbiter] s (requests p s) := by
  have one (c : Bool) (l : Load) (s : State) : KeepsBut [.arbiter] s (if c then requestLoad l s else s) :=
    .ite (fun _ => requestLoad_keeps _ _) (fun _ => .refl _ _)
  exact ((one _ _ s).trans (one _ _ _)).trans (one _ _ _)

/-- Settling changes the outputs, the arbiter and the tumble states alone. -/
theorem settleOutputs_keeps (s : State) : KeepsBut loadParts s (settleOutputs s) :=
  (((keeps_forPockets lapses_keeps s).mono (by decide)).trans
    ((keeps_forPockets requests_keeps _).mono (by decide))).trans (serveArbiter_keeps _)

theorem clearLoads_keeps (s : State) : KeepsBut [.outputs, .arbiter] s (clearLoads s) :=
  (keeps_forPockets (fun _ _ => keeps_modOutput _ _ (by decide)) s).trans (keeps_setArbiter _ (by decide))

/-! ## Stall timers -/

theorem startStall_keeps (p : Pocket) (o : Origin) (s : State) : KeepsBut [.alwaysOn] s (startStall p o s) :=
  keeps_modStall _ _ (by decide)

theorem startSaturated_keeps (p : Pocket) (s : State) : KeepsBut [.alwaysOn] s (startSaturated p s) :=
  keeps_modStall _ _ (by decide)

theorem stopStall_keeps (p : Pocket) (s : State) : KeepsBut [.alwaysOn] s (stopStall p s) :=
  keeps_modStall _ _ (by decide)

theorem firmStall_keeps (s : State) : KeepsBut [.alwaysOn] s (firmStall s) :=
  keeps_forPockets (fun _ _ => keeps_modStall _ _ (by decide)) s

theorem rideThroughStall_keeps (s : State) : KeepsBut [.alwaysOn] s (rideThroughStall s) :=
  keeps_forPockets (fun _ _ => keeps_modStall _ _ (by decide)) s

theorem startActiveStalls_keeps (o : Origin) (s : State) : KeepsBut [.alwaysOn] s (startActiveStalls o s) :=
  keeps_forPockets (fun _ _ => .ite (fun _ => startStall_keeps _ _ _) (fun _ => .refl _ _)) s

/-! ## The link's sending side -/

theorem reply_keeps (k g : Byte) (r : Result) (d : List Byte) (s : State) : KeepsBut [.link] s (reply k g r d s) :=
  keeps_setLink _ (by decide)

theorem refuse_keeps (k g : Byte) (r : Result) (s : State) : KeepsBut [.link] s (refuse k g r s) := reply_keeps k g r [] s

theorem badValue_keeps (k g : Byte) (i : Nat) (s : State) : KeepsBut [.link] s (badValue k g i s) :=
  reply_keeps k g .badValue [byte i] s

theorem holdReply_keeps (k g : Byte) (a : Awaited) (s : State) : KeepsBut [.link] s (holdReply k g a s) :=
  keeps_setLink _ (by decide)

theorem release_keeps (a : Awaited) (r : Result) (d : List Byte) (s : State) : KeepsBut [.link] s (release a r d s) := by
  unfold release
  split
  · exact .ite (fun _ => keeps_setLink _ (by decide)) (fun _ => .refl _ _)
  · exact .refl _ _

theorem endStream_keeps (c : Bool) (s : State) : KeepsBut [.link, .writer] s (endStream c s) := by
  unfold endStream
  split
  · exact .refl _ _
  · exact (keeps_setLink _ (by decide)).trans (keeps_setWriter _ (by decide))

/-! ## The queue and the LOSS list -/

theorem enqueue_keeps (r : Request) (s : State) : KeepsBut [.trackers, .writer] s (enqueue r s) := by
  have base : KeepsBut [.trackers, .writer] s (s.modTracker r.pocket fun t => { t with periodic := 0 }) :=
    keeps_modTracker _ _ (by decide)
  unfold enqueue
  refine base.trans ?_
  dsimp only
  split
  · exact .ite (fun _ => .refl _ _) (fun _ => keeps_setWriter _ (by decide))
  · exact keeps_setWriter _ (by decide)
  · exact .ite (fun _ => .refl _ _) (fun _ => keeps_setWriter _ (by decide))

theorem requestCheckpoint_keeps (p : Pocket) (r : CheckpointReason) (s : State) :
    KeepsBut [.trackers, .writer] s (requestCheckpoint p r s) := by
  unfold requestCheckpoint
  split
  · exact enqueue_keeps _ _
  · exact .refl _ _

theorem dropLoss_keeps (p : Pocket) (s : State) : KeepsBut [.capture] s (dropLoss p s) := keeps_setCapture _ (by decide)

theorem joinSnapshot_keeps (r : LossReason) (p : Pocket) (s : State) : KeepsBut [.capture] s (joinSnapshot r p s) := by
  unfold joinSnapshot
  refine .ite (fun _ => .refl _ _) (fun _ => ?_)
  split
  · exact keeps_setCapture _ (by decide)
  · exact .refl _ _

/-! ## The trackers -/

theorem enterState_keeps (p : Pocket) (st : PocketState) (s : State) : KeepsBut entryParts s (enterState p st s) := by
  unfold enterState
  refine KeepsBut.trans (t := if (s.tracker p).state = .anticrease ∧ st ≠ .anticrease then
      (s.modTracker p (·.enter st)).modSchedule p (·.dropped) else s.modTracker p (·.enter st)) ?_
    ((keeps_modOutput _ _ (by decide)).trans (keeps_setActive _ _ (by decide)))
  exact .ite (fun _ => (keeps_modTracker _ _ (by decide)).trans (keeps_modSchedule _ _ (by decide)))
    (fun _ => keeps_modTracker _ _ (by decide))

theorem enterFree_keeps (p : Pocket) (s : State) : KeepsBut entryParts s (enterFree p s) :=
  (((enterState_keeps p .free s).trans (keeps_modTracker _ _ (by decide))).trans
    (keeps_modSchedule _ _ (by decide))).trans (keeps_modOutput _ _ (by decide))

theorem enterHeld_keeps (p : Pocket) (r : HeldReason) (b : Bool) (s : State) : KeepsBut entryParts s (enterHeld p r b s) :=
  (enterState_keeps p _ s).trans (keeps_modTracker _ _ (by decide))

theorem enterPaused_keeps (p : Pocket) (r : RunPhase) (s : State) : KeepsBut entryParts s (enterPaused p r s) :=
  enterState_keeps p _ s

theorem enterClosing_keeps (p : Pocket) (r : CloseReason) (a b : Nat) (s : State) :
    KeepsBut [.trackers, .schedules, .outputs, .alwaysOn, .capture, .writer] s (enterClosing p r a b s) :=
  (((dropLoss_keeps p s).mono (by decide)).trans ((enterState_keeps p _ _).mono (by decide))).trans
    ((enqueue_keeps _ _).mono (by decide))

theorem enterAnticrease_keeps (p : Pocket) (n : Nat) (b : Bool) (s : State) :
    KeepsBut entryParts s (enterAnticrease p n b s) := by
  unfold enterAnticrease
  refine (enterState_keeps p .anticrease s).trans ?_
  dsimp only
  split
  · exact keeps_modSchedule _ _ (by decide)
  · exact .refl _ _

theorem takeSnapshot_keeps (p : Pocket) (s : State) : KeepsBut [.trackers] s (takeSnapshot p s) := by
  unfold takeSnapshot
  split
  · exact keeps_modTracker _ _ (by decide)
  · exact .refl _ _

theorem toPending_keeps (p : Pocket) (s : State) : KeepsBut entryParts s (toPending p s) := by
  unfold toPending
  split
  · exact ((enterState_keeps p .pending s).trans (keeps_modTracker _ _ (by decide))).trans
      (.ite (fun _ => .refl _ _) (fun _ => (startStall_keeps _ _ _).mono (by decide)))
  · exact .refl _ _

theorem activation_keeps (p : Pocket) (s : State) :
    KeepsBut [.trackers, .schedules, .outputs, .alwaysOn, .capture] s (activation p s) := by
  have join (u : State) : KeepsBut [.trackers, .schedules, .outputs, .alwaysOn, .capture] u
      (match u.capture.reason with
        | some r => joinSnapshot r p u
        | none => u) := by
    split
    · exact (joinSnapshot_keeps _ _ _).mono (by decide)
    · exact .refl _ _
  unfold activation
  refine KeepsBut.trans ?_ (KeepsBut.ite (fun _ => (toPending_keeps _ _).mono (by decide)) (fun _ => .refl _ _))
  refine .ite (fun _ => ?_) (fun _ => .refl _ _)
  exact (((takeSnapshot_keeps p s).mono (by decide)).trans ((startStall_keeps _ _ _).mono (by decide))).trans (join _)

theorem noteNewest_keeps (p : Pocket) (n : Option Nat) (s : State) : KeepsBut [.trackers] s (noteNewest p n s) := by
  unfold noteNewest
  split
  · exact keeps_modTracker _ _ (by decide)
  · exact .refl _ _

theorem completeOpen_keeps (p : Pocket) (g : Programme) (n : Option Nat) (s : State) :
    KeepsBut cycleParts s (completeOpen p g n s) := by
  unfold completeOpen
  exact (((((((noteNewest_keeps p n s).mono (by decide)).trans (keeps_modTracker _ _ (by decide))).trans
    (keeps_modSchedule _ _ (by decide))).trans ((enterState_keeps _ _ _).mono (by decide))).trans
    ((release_keeps _ _ _ _).mono (by decide))).trans ((activation_keeps _ _).mono (by decide))).trans
    ((settleOutputs_keeps _).mono (by decide))

theorem completeReemit_keeps (p : Pocket) (n : Option Nat) (s : State) :
    KeepsBut cycleParts s (completeReemit p n s) :=
  (((noteNewest_keeps p n s).mono (by decide)).trans (keeps_modTracker _ _ (by decide))).trans
    ((requestCheckpoint_keeps _ _ _).mono (by decide))

theorem enterPlan_keeps (p : Pocket) (l : Plan) (s : State) :
    KeepsBut [.trackers, .schedules, .outputs, .alwaysOn, .capture, .writer] s (enterPlan p l s) := by
  have el (n : Nat) (s : State) :
      KeepsBut [.trackers, .schedules, .outputs, .alwaysOn, .capture, .writer] s
        (s.modSchedule p fun c => { c with elapsed := n }) := keeps_modSchedule _ _ (by decide)
  unfold enterPlan
  dsimp only
  split
  · exact (el _ s).trans ((enterState_keeps _ _ _).mono (by decide))
  · exact (el _ s).trans ((enterState_keeps _ _ _).mono (by decide))
  · exact ((enterAnticrease_keeps _ _ _ _).mono (by decide)).trans
      (.ite (fun _ => enterClosing_keeps _ _ _ _ _) (fun _ => .refl _ _))
  · exact (el _ s).trans ((enterPaused_keeps _ _ _).mono (by decide))
  · exact (el _ s).trans ((enterHeld_keeps _ _ _ _).mono (by decide))
  · exact (el _ s).trans ((enterHeld_keeps _ _ _ _).mono (by decide))
  · exact (el _ s).trans ((enterHeld_keeps _ _ _ _).mono (by decide))
  · exact (el _ s).trans (enterClosing_keeps _ _ _ _ _)

theorem completeAdopt_keeps (p : Pocket) (l : Plan) (n : Option Nat) (s : State) :
    KeepsBut cycleParts s (completeAdopt p l n s) := by
  unfold completeAdopt
  split
  · exact .refl _ _
  · exact ((((((stopStall_keeps p s).mono (by decide)).trans (keeps_modTracker _ _ (by decide))).trans
      ((release_keeps _ _ _ _).mono (by decide))).trans ((enterPlan_keeps _ _ _).mono (by decide))).trans
      ((activation_keeps _ _).mono (by decide))).trans ((settleOutputs_keeps _).mono (by decide))

theorem completeClose_keeps (p : Pocket) (r : CloseReason) (a b : Nat) (s : State) :
    KeepsBut cycleParts s (completeClose p r a b s) := by
  unfold completeClose
  exact ((((enterFree_keeps p s).mono (by decide)).trans ((stopStall_keeps _ _).mono (by decide))).trans
    ((settleOutputs_keeps _).mono (by decide))).trans ((release_keeps _ _ _ _).mono (by decide))

/-- The owner's act on the end of a record request changes the trackers' fields alone. -/
theorem notify_keeps (r : Request) (n : Option Nat) (s : State) : KeepsBut cycleParts s (notify r n s) := by
  unfold notify
  split
  · exact completeOpen_keeps _ _ _ _
  · exact completeReemit_keeps _ _ _
  · exact (noteNewest_keeps _ _ _).mono (by decide)
  · exact (noteNewest_keeps _ _ _).mono (by decide)
  · exact completeAdopt_keeps _ _ _ _
  · exact completeClose_keeps _ _ _ _ _

theorem notifyDropped_keeps (r : Request) (s : State) : KeepsBut cycleParts s (notifyDropped r s) := by
  unfold notifyDropped
  split
  · exact (((enterFree_keeps _ _).mono (by decide)).trans ((settleOutputs_keeps _).mono (by decide))).trans
      ((release_keeps _ _ _ _).mono (by decide))
  · exact (((enterState_keeps _ _ _).mono (by decide)).trans ((settleOutputs_keeps _).mono (by decide))).trans
      ((release_keeps _ _ _ _).mono (by decide))
  · exact .refl _ _

theorem openLost_keeps (p : Pocket) (s : State) : KeepsBut [.trackers, .writer] s (openLost p s) := by
  unfold openLost
  split
  · exact enqueue_keeps _ _
  · exact .refl _ _

theorem paidSecond_keeps (p : Pocket) (s : State) :
    KeepsBut [.trackers, .schedules, .outputs, .alwaysOn, .capture, .writer, .arbiter] s (paidSecond p s) := by
  unfold paidSecond
  refine KeepsBut.trans (t := s.modTracker p fun t => { t with paid := (s.tracker p).paid - 1, paidAcc := 0 })
    (keeps_modTracker _ _ (by decide)) ?_
  dsimp only
  split
  · exact .ite (fun _ => (((enterState_keeps _ _ _).mono (by decide)).trans ((settleOutputs_keeps _).mono (by decide))).trans
      ((requestCheckpoint_keeps _ _ _).mono (by decide))) (fun _ => .refl _ _)
  · refine .ite (fun _ => .refl _ _) (fun _ => .ite (fun _ => ?_) (fun _ => ?_))
    · exact (((enterAnticrease_keeps _ _ _ _).mono (by decide)).trans ((settleOutputs_keeps _).mono (by decide))).trans
        ((requestCheckpoint_keeps _ _ _).mono (by decide))
    · exact ((enterClosing_keeps _ _ _ _ _).mono (by decide)).trans ((settleOutputs_keeps _).mono (by decide))
  · exact .refl _ _

theorem anticreaseSecond_keeps (p : Pocket) (s : State) :
    KeepsBut [.trackers, .schedules, .outputs, .alwaysOn, .capture, .writer, .arbiter] s (anticreaseSecond p s) := by
  unfold anticreaseSecond
  refine KeepsBut.trans (t := s.modSchedule p fun c => { c with elapsed := c.elapsed + 1, acc := 0 })
    (keeps_modSchedule _ _ (by decide)) ?_
  refine .ite (fun _ => ?_) (fun _ => ?_)
  · exact ((keeps_modSchedule _ _ (by decide)).trans ((enterClosing_keeps _ _ _ _ _).mono (by decide))).trans
      ((settleOutputs_keeps _).mono (by decide))
  · exact (keeps_modSchedule _ _ (by decide)).trans ((settleOutputs_keeps _).mono (by decide))

theorem announceReturn_keeps (s : State) :
    KeepsBut [.mains, .outputs, .arbiter, .schedules] s (announceReturn s) := by
  unfold announceReturn
  refine .ite (fun _ => ?_) (fun _ => .refl _ _)
  refine ((keeps_setMains _ (by decide)).trans (keeps_forPockets (fun p s => ?_) _)).trans
    ((settleOutputs_keeps _).mono (by decide))
  exact .ite (fun _ => keeps_modOutput _ _ (by decide)) (fun _ => .refl _ _)

/-! ## The journal -/

theorem forgetDemands_keeps (i : Nat) (s : State) : KeepsBut [.writer, .link] s (forgetDemands i s) :=
  (keeps_setWriter _ (by decide)).trans (keeps_setLink _ (by decide))

theorem forgetSlot_keeps (i : Nat) (s : State) : KeepsBut [.writer, .scrub, .scan, .link] s (forgetSlot i s) :=
  (((forgetDemands_keeps i s).mono (by decide)).trans (keeps_setScrub _ (by decide))).trans (keeps_setScan _ (by decide))

theorem markRetired_keeps (i : Nat) (s : State) : KeepsBut [.writer, .scrub, .scan, .link] s (markRetired i s) :=
  (keeps_setWriter _ (by decide)).trans (forgetSlot_keeps i _)

theorem endUnwritten_keeps (r : Request) (s : State) : KeepsBut cycleParts s (endUnwritten r s) := by
  unfold endUnwritten
  exact ((keeps_setWriter _ (by decide)).trans
    (.ite (fun _ => keeps_setCapture _ (by decide)) (fun _ => .refl _ _))).trans (notify_keeps _ _ _)

theorem startAttempt_keeps (r : Request) (k : Nat) (s : State) :
    KeepsBut (cycleParts ++ [.scan, .scrub]) s (startAttempt r k s) := by
  unfold startAttempt
  split
  · exact (keeps_setWriter _ (by decide)).trans ((forgetSlot_keeps _ _).mono (by decide))
  · exact (endUnwritten_keeps _ _).mono (by decide)

theorem completeRecord_keeps (t : Attempt) (s : State) : KeepsBut cycleParts s (completeRecord t s) := by
  unfold completeRecord
  exact ((keeps_setWriter _ (by decide)).trans
    (.ite (fun _ => keeps_setCapture _ (by decide)) (fun _ => .refl _ _))).trans (notify_keeps _ _ _)

theorem mismatchRecord_keeps (t : Attempt) (s : State) :
    KeepsBut (cycleParts ++ [.scan, .scrub]) s (mismatchRecord t s) := by
  unfold mismatchRecord
  exact ((markRetired_keeps _ _).mono (by decide)).trans
    (.ite (fun _ => (endUnwritten_keeps _ _).mono (by decide)) (fun _ => keeps_setWriter _ (by decide)))

theorem attemptDone_keeps (t : Attempt) (b : ReadBack) (s : State) :
    KeepsBut (.array :: (cycleParts ++ [.scan, .scrub])) s (attemptDone t b s) := by
  cases b with
  | matched =>
    exact ((keeps_setSlot _ _ (by decide)).trans (keeps_setWriter _ (by decide))).trans
      ((completeRecord_keeps _ _).mono (by decide))
  | mismatched _ =>
    exact ((keeps_setSlot _ _ (by decide)).trans (keeps_setWriter _ (by decide))).trans
      ((mismatchRecord_keeps _ _).mono (by decide))

theorem startMapWrite_keeps (s : State) : KeepsBut [.writer] s (startMapWrite s) := by
  unfold startMapWrite
  split
  · exact .refl _ _
  · exact keeps_setWriter _ (by decide)
  · exact keeps_setWriter _ (by decide)

theorem mapDone_keeps (b : Bool) (r : ReadBack) (s : State) : KeepsBut [.array, .writer] s (mapDone b r s) :=
  (keeps_setArray _ (by decide)).trans (keeps_setWriter _ (by decide))

theorem loseProtection_keeps (i : Nat) (s : State) : KeepsBut [.trackers, .writer] s (loseProtection i s) := by
  refine keeps_forPockets (fun p s => ?_) s
  unfold loseProtectionOf
  exact KeepsBut.trans (keeps_setWriter _ (by decide)) (.ite (fun _ => openLost_keeps _ _)
    (fun _ => .ite (fun _ => requestCheckpoint_keeps _ _ _) (fun _ => .refl _ _)))

/-! ## Repairs and reads -/

theorem setNext_keeps (n : JobNext) (s : State) : KeepsBut [.writer] s (setNext n s) := keeps_setWriter _ (by decide)

theorem startErase_keeps (i : Nat) (f : Finding) (s : State) : KeepsBut [.writer, .scrub, .link] s (startErase i f s) :=
  .ite (fun _ => .refl _ _) (fun _ => KeepsBut.trans (KeepsBut.trans (keeps_setWriter _ (by decide))
    ((forgetDemands_keeps _ _).mono (by decide))) (keeps_setScrub _ (by decide)))

theorem eraseDone_keeps (i : Nat) (f : Finding) (b : ReadBack) (s : State) :
    KeepsBut [.array, .writer, .scrub, .scan, .link] s (eraseDone i f b s) := by
  cases b with
  | matched =>
    exact ((keeps_setSlot _ _ (by decide)).trans (keeps_setWriter _ (by decide))).trans
      (.ite (fun _ => .refl _ _) (fun _ => keeps_setWriter _ (by decide)))
  | mismatched _ =>
    exact (((keeps_setSlot _ _ (by decide)).trans (keeps_setWriter _ (by decide))).trans
      (keeps_setWriter _ (by decide))).trans ((markRetired_keeps _ _).mono (by decide))

theorem startCopy_keeps (i : Nat) (b : List Byte) (r : Nat) (s : State) :
    KeepsBut [.writer, .scrub, .scan, .link] s (startCopy i b r s) := by
  unfold startCopy
  split
  · exact (keeps_setWriter _ (by decide)).trans (forgetSlot_keeps _ _)
  · exact .refl _ _

theorem copyDone_keeps (c : Copying) (b : ReadBack) (s : State) :
    KeepsBut [.array, .writer, .scrub, .scan, .link] s (copyDone c b s) := by
  cases b with
  | matched =>
    exact (((keeps_setSlot _ _ (by decide)).trans (keeps_setWriter _ (by decide))).trans
      (keeps_setWriter _ (by decide))).trans ((setNext_keeps _ _).mono (by decide))
  | mismatched _ =>
    exact (((keeps_setSlot _ _ (by decide)).trans (keeps_setWriter _ (by decide))).trans
      ((markRetired_keeps _ _).mono (by decide))).trans ((setNext_keeps _ _).mono (by decide))

theorem endJob_keeps (j : Job) (s : State) : KeepsBut [.writer, .scrub] s (endJob j s) :=
  (keeps_setWriter _ (by decide)).trans (.ite (fun _ => keeps_setScrub _ (by decide)) (fun _ => .refl _ _))

theorem startPatrolRead_keeps (s : State) : KeepsBut [.writer] s (startPatrolRead s) := by
  unfold startPatrolRead
  split <;> exact keeps_setWriter _ (by decide)

theorem continueJob_keeps (j : Job) (s : State) : KeepsBut [.writer, .scrub, .scan, .link] s (continueJob j s) := by
  unfold continueJob
  split
  · exact (startPatrolRead_keeps _).mono (by decide)
  · exact ((setNext_keeps _ _).mono (by decide)).trans (startCopy_keeps _ _ _ _)
  · exact ((setNext_keeps _ _).mono (by decide)).trans ((startErase_keeps _ _ _).mono (by decide))
  · exact ((setNext_keeps _ _).mono (by decide)).trans ((startErase_keeps _ _ _).mono (by decide))
  · exact (endJob_keeps _ _).mono (by decide)

theorem stopJob_keeps (j : Job) (s : State) : KeepsBut [.writer, .scrub] s (stopJob j s) := by
  unfold stopJob
  split
  · exact (keeps_setScrub _ (by decide)).trans (endJob_keeps _ _)
  · exact endJob_keeps _ _
  · exact keeps_setWriter _ (by decide)

theorem scrubRead_keeps (i : Nat) (d : Decay (List Byte)) (s : State) :
    KeepsBut [.array, .writer, .trackers] s (scrubRead i d s) := by
  exact (((keeps_setSlot _ _ (by decide)).trans (keeps_setWriter _ (by decide))).trans
    (.ite (fun _ => (loseProtection_keeps _ _).mono (by decide)) (fun _ => .refl _ _))).trans
    ((setNext_keeps _ _).mono (by decide))

theorem startPatrol_keeps (s : State) : KeepsBut [.writer, .scrub, .link] s (startPatrol s) := by
  have go (u : State) : KeepsBut [.writer, .scrub, .link] u
      (match u.scrub.unfinished with
        | some i =>
          startErase i .corrected
            ((u.setWriter { u.writer with job := some ⟨.patrol, i, .readSlot⟩ }).setScrub
              { u.scrub with unfinished := none })
        | none => startPatrolRead u) := by
    split
    · exact ((keeps_setWriter _ (by decide)).trans (keeps_setScrub _ (by decide))).trans (startErase_keeps _ _ _)
    · exact (startPatrolRead_keeps _).mono (by decide)
  exact KeepsBut.trans (keeps_setScrub _ (by decide)) (go _)

theorem startDemand_keeps (d : Demand) (s : State) : KeepsBut [.writer] s (startDemand d s) :=
  keeps_setWriter _ (by decide)

theorem sendSlot_keeps (r : SlotRead) (d : Option Demand) (s : State) : KeepsBut [.link] s (sendSlot r d s) := by
  unfold sendSlot
  split
  · exact keeps_setLink _ (by decide)
  · exact .refl _ _

theorem startReadout_keeps (i : Nat) (s : State) : KeepsBut [.writer, .link] s (startReadout i s) := by
  exact KeepsBut.trans (keeps_setWriter _ (by decide))
    (.ite (fun _ => (sendSlot_keeps _ _ _).mono (by decide)) (fun _ => keeps_setWriter _ (by decide)))

theorem readoutDone_keeps (i : Nat) (b : Bool) (d : Decay (List Byte)) (s : State) :
    KeepsBut [.array, .writer, .trackers, .link] s (readoutDone i b d s) := by
  exact (((keeps_setSlot _ _ (by decide)).trans (keeps_setWriter _ (by decide))).trans
    (.ite (fun _ => (loseProtection_keeps _ _).mono (by decide)) (fun _ => .refl _ _))).trans
    (.ite (fun _ => (sendSlot_keeps _ _ _).mono (by decide)) (fun _ => .refl _ _))

/-! ## The scan -/

theorem passFrom_keeps (fuel : Nat) (s : State) : KeepsBut [.scan, .writer] s (passFrom fuel s) := by
  induction fuel generalizing s with
  | zero => exact .refl _ _
  | succ n ih =>
    unfold passFrom
    exact .ite (fun _ => keeps_setScan _ (by decide))
      (fun _ => .ite (fun _ => (keeps_setScan _ (by decide)).trans (ih _)) (fun _ => keeps_setWriter _ (by decide)))

theorem takeOutcome_keeps (p : Pocket) (s : State) : KeepsBut entryParts s (takeOutcome p s) := by
  unfold takeOutcome
  split
  · exact ((enterState_keeps _ _ _).trans (keeps_modTracker _ _ (by decide))).trans
      ((startSaturated_keeps _ _).mono (by decide))
  · exact (keeps_setActive _ _ (by decide)).trans ((stopStall_keeps _ _).mono (by decide))

theorem scanDone_keeps (s : State) : KeepsBut serveParts s (scanDone s) := by
  unfold scanDone
  exact (((((keeps_forPockets takeOutcome_keeps s).mono (by decide)).trans (keeps_setWriter _ (by decide))).trans
    (keeps_setScan _ (by decide))).trans ((settleOutputs_keeps _).mono (by decide))).trans
    ((announceReturn_keeps _).mono (by decide))

theorem scanNext_keeps (s t : State) (h : scanNext s = some t) : KeepsBut serveParts s t := by
  unfold scanNext at h
  split at h
  · cases h; exact (startMapWrite_keeps s).mono (by decide)
  · split at h
    · cases h; exact (continueJob_keeps _ s).mono (by decide)
    · cases h; exact keeps_setScan _ (by decide)
    · cases h
      unfold passNext
      exact ((passFrom_keeps _ s).mono (by decide)).trans
        (.ite (fun _ => keeps_setScan _ (by decide)) (fun _ => .refl _ _))
    · cases h
      unfold resolveNext
      split
      · unfold scanIndex
        exact (keeps_setWriter _ (by decide)).trans (keeps_setScan _ (by decide))
      · exact (keeps_setScan _ (by decide)).trans (keeps_setWriter _ (by decide))
    · cases h
      unfold repairNext
      split
      · exact scanDone_keeps s
      · exact (keeps_setScan _ (by decide)).trans (keeps_setWriter _ (by decide))
    · cases h

/-! ## The capture and the writer's service -/

theorem dropQueue_keeps (s : State) : KeepsBut cycleParts s (dropQueue s) :=
  (keeps_setWriter _ (by decide)).trans (keeps_foldl (fun _ _ => notifyDropped_keeps _ _) _ _)

theorem beginCapture_keeps (r : LossReason) (s : State) : KeepsBut cycleParts s (beginCapture r s) := by
  unfold beginCapture
  exact ((((endStream_keeps _ s).mono (by decide)).trans (keeps_setCapture _ (by decide))).trans
    ((keeps_forPockets (joinSnapshot_keeps r) _).mono (by decide))).trans (dropQueue_keeps _)

theorem lossCapture_keeps (r : LossReason) (s : State) : KeepsBut cycleParts s (lossCapture r s) := by
  unfold lossCapture
  refine .ite (fun _ => ?_) (fun _ => beginCapture_keeps _ _)
  exact (keeps_setCapture _ (by decide)).trans ((keeps_forPockets (joinSnapshot_keeps r) _).mono (by decide))

theorem endRestart_keeps (c : CaptureState) (s : State) : KeepsBut [.capture, .link] s (endRestart c s) :=
  (keeps_setCapture _ (by decide)).trans ((release_keeps _ _ _ _).mono (by decide))

theorem joinCapture_keeps (f : Pocket → Bool) (s : State) : KeepsBut [.capture, .link] s (joinCapture f s) := by
  unfold joinCapture
  refine KeepsBut.trans (keeps_setCapture _ (by decide)) (KeepsBut.trans (keeps_forPockets (fun p s => ?_) _)
    (.ite (fun _ => endRestart_keeps _ _) (fun _ => .refl _ _)))
  refine .ite (fun _ => ?_) (fun _ => .refl _ _)
  unfold joinRestart
  split <;> exact (joinSnapshot_keeps _ _ _).mono (by decide)

theorem closeWindow_keeps (s : State) : KeepsBut [.capture] s (closeWindow s) :=
  .ite (fun _ => keeps_setCapture _ (by decide)) (fun _ => keeps_setCapture _ (by decide))

theorem returnCarried_keeps (s : State) : KeepsBut [.capture, .writer] s (returnCarried s) := by
  unfold returnCarried
  split
  · exact .refl _ _
  · exact KeepsBut.trans (keeps_setWriter _ (by decide)) (.ite (fun _ => keeps_setCapture _ (by decide))
      (fun _ => .ite (fun _ => .refl _ _) (fun _ => keeps_setWriter _ (by decide))))

theorem captureEnds_keeps (c : CaptureState) (s : State) :
    KeepsBut [.capture, .link] s (if s.capture.restart then endRestart c s
      else if s.capture.window then s.setCapture { s.capture with state := c } else endCapture s) :=
  .ite (fun _ => endRestart_keeps _ _)
    (fun _ => .ite (fun _ => keeps_setCapture _ (by decide)) (fun _ => keeps_setCapture _ (by decide)))

theorem refuseWrite_keeps (s : State) : KeepsBut [.capture, .writer, .link] s (refuseWrite s) := by
  unfold refuseWrite
  exact (((returnCarried_keeps s).mono (by decide)).trans (keeps_setCapture _ (by decide))).trans
    ((captureEnds_keeps _ _).mono (by decide))

theorem startCaptureWrite_keeps (s : State) : KeepsBut (cycleParts ++ [.scan, .scrub]) s (startCaptureWrite s) := by
  unfold startCaptureWrite
  refine .ite (fun _ => (startMapWrite_keeps s).mono (by decide)) (fun _ => ?_)
  split
  · exact (keeps_setWriter _ (by decide)).trans (startAttempt_keeps _ _ _)
  · exact (keeps_setWriter _ (by decide)).trans (startAttempt_keeps _ _ _)
  · exact (keeps_setCapture _ (by decide)).trans (startAttempt_keeps _ _ _)
  · exact (startMapWrite_keeps s).mono (by decide)

theorem captureNext_keeps (s : State) : KeepsBut serveParts s (captureNext s) := by
  unfold captureNext
  split
  · exact (stopJob_keeps _ _).mono (by decide)
  · exact KeepsBut.trans (keeps_setCapture _ (by decide)) (.ite (fun _ => (captureEnds_keeps _ _).mono (by decide))
      (fun _ => .ite (fun _ => (startCaptureWrite_keeps _).mono (by decide))
        (fun _ => (refuseWrite_keeps _).mono (by decide))))

theorem chooseIdle_keeps (s t : State) (h : chooseIdle s = some t) : KeepsBut [.writer, .link, .scrub] s t := by
  unfold chooseIdle at h
  dsimp only at h
  split at h
  · cases h; exact (startDemand_keeps _ _).mono (by decide)
  · cases h; exact (startReadout_keeps _ _).mono (by decide)
  · cases h; exact keeps_setWriter _ (by decide)
  · cases h; exact (startDemand_keeps _ _).mono (by decide)
  · split at h
    · cases h; exact (startPatrol_keeps _).mono (by decide)
    · cases h

theorem chooseNext_keeps (s t : State) (h : chooseNext s = some t) : KeepsBut serveParts s t := by
  unfold chooseNext at h
  dsimp only at h
  split at h
  · cases h; exact (startMapWrite_keeps s).mono (by decide)
  · split at h
    · cases h
      exact (keeps_setWriter _ (by decide)).trans ((startAttempt_keeps _ _ _).mono (by decide))
    · cases h; exact (continueJob_keeps _ s).mono (by decide)
    · cases h
      exact (keeps_setWriter _ (by decide)).trans ((startAttempt_keeps _ _ _).mono (by decide))
    · exact (chooseIdle_keeps s t h).mono (by decide)

theorem serveOnce_keeps (s t : State) (h : serveOnce s = some t) : KeepsBut serveParts s t := by
  unfold serveOnce at h
  split at h
  · exact scanNext_keeps s t h
  · split at h
    · cases h; exact captureNext_keeps s
    · split at h
      · cases h
      · exact chooseNext_keeps s t h

theorem serveFor_keeps (fuel : Nat) (s : State) : KeepsBut serveParts s (serveFor fuel s) := by
  induction fuel generalizing s with
  | zero => exact .refl _ _
  | succ n ih =>
    unfold serveFor
    split
    · split
      · next u h => exact (serveOnce_keeps s u h).trans (ih u)
      · exact .refl _ _
    · exact .refl _ _

/-- The writer's service leaves the array, the settings, the inputs, the rail, the silence timer, the frozen clocks and
the command queue alone. -/
theorem serve_keeps (s : State) : KeepsBut serveParts s (serve s) :=
  .ite (fun _ => serveFor_keeps _ s) (fun _ => .refl _ _)

end Sys2Proof.Machine
end

