-- ==== Sys2Proof/Laws/Messages.lean ====
section
/-! SUPPORT. Admission and dispatch: what `deliver`, `withPocket` and `serve` do with a message that is taken, and what the
state in which its owner acts has kept. -/

namespace Sys2Proof.Machine

variable {s : State}

/-! ## The writer's service -/

/-- While an operation is in flight the writer waits. -/
theorem serve_of_busy (h : s.writer.op ≠ .idle) : serve s = s := by
  have go (fuel : Nat) : serveFor fuel s = s := by
    cases fuel with
    | zero => rfl
    | succ n =>
      unfold serveFor
      split
      · contradiction
      · rfl
  unfold serve
  split
  · exact go _
  · rfl

/-- While the main domain is stopped the writer does nothing. -/
theorem serve_of_off (h : s.on = false) : serve s = s := by simp [serve, h]

/-! ## A message that is taken -/

theorem onMain_of_on (f : State → State) (h : s.on = true) : onMain f s = .next (serve (f s)) := by simp [onMain, h]

theorem takesMessages_on (h : s.takesMessages = true) : s.on = true := by
  simp only [State.takesMessages, State.admits, Bool.and_eq_true] at h
  exact h.1.1.1

theorem deliver_of_takes (k g : Byte) (own : State → State) (h : s.takesMessages = true) :
    deliver k g own s = own s.heard := by
  simp only [State.takesMessages, State.admits, Bool.and_eq_true, decide_eq_true_eq, Bool.not_eq_true', Option.isNone_iff_eq_none] at h
  obtain ⟨⟨⟨_, hw⟩, hs⟩, hf⟩ := h
  have e1 : (validFrame s).scanning = false := hs
  have e2 : (validFrame s).link.inFlight.isSome = false := by
    have : (validFrame s).link = s.link := rfl
    rw [this, hf]; rfl
  unfold deliver
  rw [if_neg (by omega)]
  simp only [e1, e2, Bool.false_and, Bool.false_eq_true, if_false]
  rfl

/-- A message that is taken runs its owner's part, and then the writer serves. -/
theorem onMain_deliver (k g : Byte) (own : State → State) (h : s.takesMessages = true) :
    onMain (deliver k g own) s = .next (serve (own s.heard)) := by
  rw [onMain_of_on _ (takesMessages_on h), deliver_of_takes k g own h]

/-! ## The state that the owner finds -/

theorem validFrame_keeps (s : State) : KeepsBut [.silence] s (validFrame s) := keeps_setSilence _ (by decide)

theorem heard_keeps (s : State) : KeepsBut [.silence, .link, .writer] s s.heard :=
  ((validFrame_keeps s).mono (by decide)).trans ((endStream_keeps _ _).mono (by decide))

@[simp] theorem heard_trackers (s : State) : s.heard.trackers = s.trackers := heard_keeps s .trackers (by decide)
@[simp] theorem heard_schedules (s : State) : s.heard.schedules = s.schedules := heard_keeps s .schedules (by decide)
@[simp] theorem heard_outputs (s : State) : s.heard.outputs = s.outputs := heard_keeps s .outputs (by decide)
@[simp] theorem heard_arbiter (s : State) : s.heard.arbiter = s.arbiter := heard_keeps s .arbiter (by decide)
@[simp] theorem heard_lines (s : State) : s.heard.lines = s.lines := heard_keeps s .lines (by decide)
@[simp] theorem heard_mains (s : State) : s.heard.mains = s.mains := heard_keeps s .mains (by decide)
@[simp] theorem heard_alwaysOn (s : State) : s.heard.alwaysOn = s.alwaysOn := heard_keeps s .alwaysOn (by decide)
@[simp] theorem heard_capture (s : State) : s.heard.capture = s.capture := heard_keeps s .capture (by decide)
@[simp] theorem heard_scan (s : State) : s.heard.scan = s.scan := heard_keeps s .scan (by decide)
@[simp] theorem heard_settings (s : State) : s.heard.settings = s.settings := heard_keeps s .settings (by decide)
@[simp] theorem heard_supply (s : State) : s.heard.supply = s.supply := heard_keeps s .supply (by decide)
@[simp] theorem heard_array (s : State) : s.heard.array = s.array := heard_keeps s .array (by decide)
@[simp] theorem heard_frozen (s : State) : s.heard.frozen = s.frozen := heard_keeps s .frozen (by decide)
@[simp] theorem heard_defaulted (s : State) : s.heard.defaulted = s.defaulted := heard_keeps s .defaulted (by decide)

@[simp] theorem heard_tracker (s : State) (p : Pocket) : s.heard.tracker p = s.tracker p := by simp [State.tracker]
@[simp] theorem heard_schedule (s : State) (p : Pocket) : s.heard.schedule p = s.schedule p := by simp [State.schedule]
@[simp] theorem heard_output (s : State) (p : Pocket) : s.heard.output p = s.output p := by simp [State.output]
@[simp] theorem heard_line (s : State) (p : Pocket) : s.heard.line p = s.line p := by simp [State.line]
@[simp] theorem heard_capturing (s : State) : s.heard.capturing = s.capturing := by simp [State.capturing]
@[simp] theorem heard_scanning (s : State) : s.heard.scanning = s.scanning := by simp [State.scanning]
@[simp] theorem heard_lossInProgress (s : State) : s.heard.lossInProgress = s.lossInProgress := by
  simp [State.lossInProgress]

@[simp] theorem heard_silence (s : State) : s.heard.silence = ⟨true, some (1000 * s.settings.silence), false⟩ := by
  unfold State.heard endStream
  split <;> rfl

/-- The writer's queue, its record in hand and its stamp counter are as they were. -/
theorem heard_writer (s : State) :
    s.heard.writer.queue = s.writer.queue ∧ s.heard.writer.inHand = s.writer.inHand
      ∧ s.heard.writer.counter = s.writer.counter ∧ s.heard.writer.worn = s.writer.worn
      ∧ s.heard.writer.retired = s.writer.retired := by
  unfold State.heard endStream
  split
  · exact ⟨rfl, rfl, rfl, rfl, rfl⟩
  · refine ⟨rfl, ?_, rfl, rfl, rfl⟩
    show (s.writer.endStream false).inHand = s.writer.inHand
    unfold Writer.inHand Writer.endStream
    cases s.writer.op <;> rfl

@[simp] theorem heard_queue (s : State) : s.heard.writer.queue = s.writer.queue := (heard_writer s).1
@[simp] theorem heard_inHand (s : State) : s.heard.writer.inHand = s.writer.inHand := (heard_writer s).2.1
@[simp] theorem heard_worn (s : State) : s.heard.writer.worn = s.writer.worn := (heard_writer s).2.2.2.1

@[simp] theorem heard_closing (s : State) (p : Pocket) : s.heard.writer.closing p = s.writer.closing p := by
  simp [Writer.closing]

@[simp] theorem heard_discards (s : State) (p : Pocket) (r : CheckpointReason) :
    s.heard.discardsCheckpoint p r = s.discardsCheckpoint p r := by simp [State.discardsCheckpoint]

/-! ## The rail at a command -/

/-- Whether or not it asks for the rail, a command finds every other field as it stands. -/
theorem sensedBy_keeps (c : Instr) (s : State) : KeepsBut [.rail, .railAsks] s (s.sensedBy c) :=
  .ite (fun _ => senseRail_keeps s) (fun _ => .refl _ _)

@[simp] theorem sensedBy_of_not {c : Instr} (h : sensesRail c = false) : s.sensedBy c = s := by simp [State.sensedBy, h]

/-! ## The pocket of a message -/

@[simp] theorem pocketOf_index (p : Pocket) : pocketOf (pocketIndex p) = some p := by cases p <;> rfl

theorem withPocket_index {p : Pocket} (k g : Byte) (own : Pocket → State → State) (h : (s.tracker p).state.busy = false) :
    withPocket k g (pocketIndex p) own s = own p s := by simp [withPocket, h]

/-- A taken message for a pocket that is in no in-flight state runs its own part. -/
theorem onMain_pocket {p : Pocket} (k g : Byte) (own : Pocket → State → State) (h : s.takesMessages = true)
    (hb : (s.tracker p).state.busy = false) :
    onMain (deliver k g (withPocket k g (pocketIndex p) own)) s = .next (serve (own p s.heard)) := by
  rw [onMain_deliver _ _ _ h, withPocket_index]
  simpa using hb

/-! ## Checkpoints -/

/-- A checkpoint request that is not discarded: the periodic count is 0 and the queue takes the request. -/
theorem requestCheckpoint_of {p : Pocket} {r : CheckpointReason} {phase : LossPhase}
    (h : (s.tracker p).state.lossPhase = some phase) (hd : s.discardsCheckpoint p r = false) :
    requestCheckpoint p r s = (s.modTracker p fun t => { t with periodic := 0 }).setWriter
      { s.writer with queue := takeCheckpoint ⟨p, .checkpoint r (s.progress p phase)⟩ s.writer.queue } := by
  have e : (s.modTracker p fun t => { t with periodic := 0 }).discardsCheckpoint p r = false := hd
  simp only [requestCheckpoint, h, enqueue, e]
  rfl

end Sys2Proof.Machine
end

