-- ==== Sys2Proof/Laws/Outputs.lean ====
section
/-! SUPPORT. What settling the outputs leaves: a load that its conditions do not call for is off. -/

namespace Sys2Proof.Machine

variable {s : State} {l m : Load} {p q : Pocket}

/-- Off loads of an arbiter: neither queued nor granted. -/
def Arbiter.lacks (a : Arbiter) (l : Load) : Prop := l ∉ a.queue ∧ l ∉ a.granted

theorem loadOff_of (h : (s.output l.pocket).item l.item = false) (k : s.arbiter.lacks l) : s.loadOff l := ⟨h, k⟩

/-! ## The arbiter's moves keep an absent load absent -/

theorem remove_lacks_self (a : Arbiter) (l : Load) : (a.remove l).lacks l := by
  simp [Arbiter.remove, Arbiter.lacks]

theorem remove_lacks {a : Arbiter} (m : Load) (h : a.lacks l) : (a.remove m).lacks l := by
  refine ⟨fun k => h.1 ?_, fun k => h.2 ?_⟩
  · exact (List.mem_filter.mp k).1
  · exact (List.mem_filter.mp k).1

theorem grant_lacks {a : Arbiter} {n : Nat} (hm : m ∈ a.queue) (h : a.lacks l) : (a.grant m n).lacks l := by
  refine ⟨fun k => h.1 (List.mem_filter.mp k).1, fun k => ?_⟩
  simp only [Arbiter.grant, List.mem_append, List.mem_singleton] at k
  rcases k with k | k
  · exact h.2 k
  · exact h.1 (k ▸ hm)

theorem revoke_lacks {a : Arbiter} {r : List Load} (hr : ∀ x ∈ r, x ∈ a.granted) (h : a.lacks l) : (a.revoke r).lacks l := by
  refine ⟨fun k => ?_, fun k => h.2 (List.mem_filter.mp k).1⟩
  simp only [Arbiter.revoke, List.mem_append, List.mem_filter] at k
  rcases k with ((k | k) | k) | k
  · exact h.1 k.1
  · exact h.2 (hr _ k.1)
  · exact h.2 (hr _ k.1)
  · exact h.1 k.1

theorem request_lacks {a : Arbiter} (h : a.lacks l) (hne : l ≠ m) : (a.request m).lacks l := by
  unfold Arbiter.request
  split
  · exact h
  · split
    · refine ⟨fun k => h.1 ?_, h.2⟩
      simp only [List.mem_append, List.mem_cons] at k
      rcases k with k | k | k
      · exact (List.takeWhile_prefix _).subset k
      · exact absurd k hne
      · exact (List.dropWhile_suffix _).subset k
    · dsimp only
      split
      · next hq =>
        refine ⟨fun k => h.1 ?_, h.2⟩
        simp only [List.mem_append, List.mem_filter, List.mem_cons, List.not_mem_nil, or_false] at k
        rcases k with k | k | k
        · exact k.1
        · exact absurd k hne
        · rw [k]; simpa using hq
      · refine ⟨fun k => ?_, h.2⟩
        simp only [List.mem_append, List.mem_singleton] at k
        exact k.elim h.1 hne
    · refine ⟨fun k => ?_, h.2⟩
      simp only [List.mem_append, List.mem_singleton] at k
      exact k.elim h.1 hne

/-! ## Outputs -/

theorem withItem_item (o : Outputs) (i j : Item) (b : Bool) : (o.withItem i b).item j = if i = j then b else o.item j := by
  cases i <;> cases j <;> rfl

@[simp] theorem output_modOutput_self (s : State) (p : Pocket) (f : Outputs → Outputs) :
    (s.modOutput p f).output p = f (s.output p) := by simp [State.modOutput, State.output]

theorem output_modOutput_ne (s : State) (f : Outputs → Outputs) (h : q ≠ p) : (s.modOutput p f).output q = s.output q := by
  simp only [State.modOutput, State.output, State.setOutputs]
  exact Pair.get_modify_ne _ _ h

/-- An update of a pocket's outputs that can turn none on, but for the item named. -/
theorem modOutput_loadOff {f : Outputs → Outputs} (h : s.loadOff l)
    (hf : ∀ o : Outputs, o.item l.item = false → p = l.pocket → (f o).item l.item = false) : (s.modOutput p f).loadOff l := by
  refine ⟨?_, h.2⟩
  by_cases e : l.pocket = p
  · subst e
    rw [output_modOutput_self]
    exact hf _ h.1 rfl
  · rw [output_modOutput_ne _ _ e]
    exact h.1

theorem setArbiter_loadOff {a : Arbiter} (h : (s.output l.pocket).item l.item = false) (k : a.lacks l) :
    (s.setArbiter a).loadOff l := ⟨h, k⟩

theorem dropLoad_item (o : Outputs) (i j : Item) :
    o.item j = false ∨ i = j →
    Outputs.item (match i with
      | .motor => { o with motor := false, airflow := .off, proving := 0, airTimer := 0 }
      | i => o.withItem i false) j = false := by
  rintro (h | rfl)
  · cases i <;> cases j <;> first | rfl | exact h
  · cases i <;> rfl

theorem dropLoad_self (l : Load) (s : State) : (dropLoad l s).loadOff l := by
  refine setArbiter_loadOff ?_ (remove_lacks_self _ _)
  rw [output_modOutput_self]
  exact dropLoad_item _ _ _ (.inr rfl)

theorem dropLoad_loadOff (m : Load) (h : s.loadOff l) : (dropLoad m s).loadOff l := by
  refine setArbiter_loadOff ?_ (remove_lacks m h.2)
  exact (modOutput_loadOff h fun o ho _ => dropLoad_item _ _ _ (.inl ho)).1

theorem refreshAirflow_loadOff (p : Pocket) (h : s.loadOff l) : (refreshAirflow p s).loadOff l := by
  have one : (s.modOutput p fun o => { o with airflow := s.brokenAirflow p, airTimer := 0 }).loadOff l :=
    modOutput_loadOff h fun o ho _ => by cases l with | mk q i => cases i <;> exact ho
  unfold refreshAirflow
  split
  · split
    · exact h
    · exact one
  · split
    · exact h
    · exact one
  · exact h

theorem lapses_loadOff (p : Pocket) (h : s.loadOff l) : (lapses p s).loadOff l := by
  have stage (i : Item) {s : State} (h : s.loadOff l) : (lapseStage i p s).loadOff l := by
    unfold lapseStage; split
    · exact h
    · exact dropLoad_loadOff _ h
  have motor {s : State} (h : s.loadOff l) : (lapseMotor p s).loadOff l := by
    unfold lapseMotor; split
    · exact h
    · exact dropLoad_loadOff _ h
  exact stage _ (stage _ (motor (refreshAirflow_loadOff p h)))

theorem requestLoad_loadOff (m : Load) (h : s.loadOff l) (hne : l ≠ m) : (requestLoad m s).loadOff l :=
  setArbiter_loadOff h.1 (request_lacks h.2 hne)

theorem revokeStages_loadOff {r : List Load} (hr : ∀ x ∈ r, x ∈ s.arbiter.granted) (h : s.loadOff l) :
    (revokeStages r s).loadOff l := by
  have fold : ∀ (r : List Load) (u : State), u.arbiter = s.arbiter → u.loadOff l →
      (r.foldl (fun s l => s.modOutput l.pocket (·.withItem l.item false)) u).loadOff l := by
    intro r
    induction r with
    | nil => intro u _ hu; exact hu
    | cons x r ih =>
      intro u hu hl
      exact ih _ hu (modOutput_loadOff hl fun o ho _ => by rw [withItem_item]; split <;> first | rfl | exact ho)
  exact setArbiter_loadOff (fold r s rfl h).1 (revoke_lacks hr h.2)

theorem shedFrom_subset (g : Settings) (n : Nat) (r : List Load) : ∀ x ∈ shedFrom g n r, x ∈ r := by
  induction r generalizing n with
  | nil => intro x hx; exact hx
  | cons a r ih =>
    intro x hx
    unfold shedFrom at hx
    split at hx
    · exact absurd hx List.not_mem_nil
    · rcases List.mem_cons.mp hx with rfl | hx
      · exact List.mem_cons_self
      · exact List.mem_cons_of_mem _ (ih _ _ hx)

theorem sheds_granted (s : State) : ∀ x ∈ s.sheds, x ∈ s.arbiter.granted := by
  intro x hx
  have := shedFrom_subset _ _ _ x (List.mem_reverse.mp hx)
  exact (List.mem_filter.mp (List.mem_reverse.mp this)).1

theorem revokeAllStages_loadOff (h : s.loadOff l) : (revokeAllStages s).loadOff l :=
  revokeStages_loadOff (fun _ hx => (List.mem_filter.mp hx).1) h

theorem turnOn_loadOff (h : s.loadOff l) (hne : l ≠ m) : (turnOn m s).loadOff l := by
  have on (i : Item) (hi : m.item = i) : (s.modOutput m.pocket (·.withItem i true)).loadOff l :=
    modOutput_loadOff h fun o ho hp => by
      rw [withItem_item, if_neg]
      · exact ho
      · intro e
        apply hne
        cases l; cases m
        simp_all
  unfold turnOn
  split
  · next hm =>
    have h1 := on .motor hm
    have h2 : (airflowAtTurnOn m.pocket (s.modOutput m.pocket (·.withItem .motor true))).loadOff l :=
      modOutput_loadOff h1 fun o ho _ => by cases l with | mk q i => cases i <;> exact ho
    unfold startTumble
    split
    · exact h2
    · exact h2
  · exact on _ rfl

theorem grantLoad_loadOff (h : s.loadOff l) (hm : m ∈ s.arbiter.queue) : (grantLoad m s).loadOff l := by
  have hne : l ≠ m := fun e => h.2.1 (e ▸ hm)
  unfold grantLoad
  dsimp only
  refine turnOn_loadOff ?_ hne
  split
  · next hi =>
    have h1 := revokeStages_loadOff (sheds_granted s) h
    refine setArbiter_loadOff h1.1 ⟨fun k => h1.2.1 (List.mem_filter.mp k).1, fun k => ?_⟩
    simp only [Arbiter.grant, List.mem_append, List.mem_singleton] at k
    exact k.elim h1.2.2 hne
  · exact setArbiter_loadOff h.1 (grant_lacks hm h.2)

theorem testHead_loadOff (fuel : Nat) (h : s.loadOff l) : (testHead fuel s).loadOff l := by
  induction fuel generalizing s with
  | zero => exact h
  | succ n ih =>
    unfold testHead
    split
    · exact h
    · next m rest hq =>
      split
      · exact ih (grantLoad_loadOff h (by rw [hq]; exact List.mem_cons_self))
      · exact h

/-! ## Settling -/

theorem dropLoad_output_ne (m : Load) (s : State) (h : q ≠ m.pocket) : (dropLoad m s).output q = s.output q :=
  output_modOutput_ne _ _ h

theorem refreshAirflow_output_ne (s : State) (h : q ≠ p) : (refreshAirflow p s).output q = s.output q := by
  unfold refreshAirflow
  split
  · split
    · rfl
    · exact output_modOutput_ne _ _ h
  · split
    · rfl
    · exact output_modOutput_ne _ _ h
  · rfl

theorem lapses_output_ne (s : State) (h : q ≠ p) : (lapses p s).output q = s.output q := by
  have stage (i : Item) (s : State) : (lapseStage i p s).output q = s.output q := by
    unfold lapseStage; split
    · rfl
    · exact dropLoad_output_ne _ _ h
  have motor (s : State) : (lapseMotor p s).output q = s.output q := by
    unfold lapseMotor; split
    · rfl
    · exact dropLoad_output_ne _ _ h
  unfold lapses
  rw [stage, stage, motor, refreshAirflow_output_ne _ h]

/-- The conditions of the motor and of the stages, but for the outputs themselves, do not change as outputs lapse. -/
theorem motorAllowed_congr {s t : State} (p : Pocket) (h : KeepsBut [.outputs, .arbiter] s t)
    (hg : (t.output p).guard = (s.output p).guard) : t.motorAllowed p = s.motorAllowed p := by
  have h1 : t.trackers = s.trackers := h .trackers (by decide)
  have h2 : t.schedules = s.schedules := h .schedules (by decide)
  have h3 : t.lines = s.lines := h .lines (by decide)
  have h4 : t.mains = s.mains := h .mains (by decide)
  simp only [State.motorAllowed, State.motorWanted, State.tracker, State.schedule, State.line, h1, h2, h3, h4, hg]

theorem refreshAirflow_guard (p : Pocket) (s : State) : ((refreshAirflow p s).output p).guard = (s.output p).guard := by
  unfold refreshAirflow
  split
  · split
    · rfl
    · rw [output_modOutput_self]
  · split
    · rfl
    · rw [output_modOutput_self]
  · rfl

theorem refreshAirflow_demand (p : Pocket) (i : Item) (s : State) :
    (refreshAirflow p s).inDemand p i = s.inDemand p i := by
  have one (a : Airflow) (ha : a ≠ .proven) (hs : (s.output p).airflow ≠ .proven) :
      (s.modOutput p fun o => { o with airflow := a, airTimer := 0 }).inDemand p i = s.inDemand p i := by
    have e1 : (a == Airflow.proven) = false := by simpa using ha
    have e2 : ((s.output p).airflow == Airflow.proven) = false := by simpa using hs
    unfold State.inDemand
    rw [output_modOutput_self]
    simp [e1, e2]
  have broken : s.brokenAirflow p ≠ .proven := by unfold State.brokenAirflow; split <;> decide
  unfold refreshAirflow
  split
  · next h => split
              · rfl
              · exact one _ broken (by rw [h]; decide)
  · next h => split
              · rfl
              · exact one _ broken (by rw [h]; decide)
  · rfl

theorem lapseMotor_demand (p : Pocket) (i : Item) (s : State)
    (h : s.inDemand p i = false ∨ s.motorAllowed p = false) : (lapseMotor p s).inDemand p i = false := by
  unfold lapseMotor
  split
  · next ha => rcases h with h | h
               · exact h
               · rw [ha] at h; exact absurd h (by decide)
  · have e : ((dropLoad ⟨p, .motor⟩ s).output p).motor = false := (dropLoad_self ⟨p, .motor⟩ s).1
    unfold State.inDemand
    rw [e]
    simp

/-- A motor that its conditions do not allow is off after the lapses. -/
theorem lapses_motor_off (s : State) (h : s.motorAllowed p = false) : (lapses p s).loadOff ⟨p, .motor⟩ := by
  have stage (i : Item) {s : State} (h : s.loadOff ⟨p, .motor⟩) : (lapseStage i p s).loadOff ⟨p, .motor⟩ := by
    unfold lapseStage; split
    · exact h
    · exact dropLoad_loadOff _ h
  refine stage _ (stage _ ?_)
  have e : (refreshAirflow p s).motorAllowed p = false := by
    rw [motorAllowed_congr p ((refreshAirflow_keeps p s).mono (by decide)) (refreshAirflow_guard p s), h]
  unfold lapseMotor
  rw [e]
  exact dropLoad_self _ _

theorem lapseStage_demand (i j : Item) (s : State) (hi : i ≠ .motor) :
    (lapseStage i p s).inDemand p j = s.inDemand p j := by
  unfold lapseStage
  split
  · rfl
  · have o : (dropLoad ⟨p, i⟩ s).output p = (s.output p).withItem i false := by
      cases i with
      | motor => exact absurd rfl hi
      | stage1 => exact output_modOutput_self _ _ _
      | stage2 => exact output_modOutput_self _ _ _
    unfold State.inDemand
    rw [o]
    cases i with
    | motor => exact absurd rfl hi
    | stage1 => rfl
    | stage2 => rfl

/-- A stage that is not in demand, or whose motor is not allowed, is off after the lapses. -/
theorem lapses_stage_off (s : State) (i : Item) (hi : i ≠ .motor)
    (h : s.inDemand p i = false ∨ s.motorAllowed p = false) : (lapses p s).loadOff ⟨p, i⟩ := by
  have d : (lapseMotor p (refreshAirflow p s)).inDemand p i = false := by
    refine lapseMotor_demand p i _ ?_
    rw [refreshAirflow_demand,
      motorAllowed_congr p ((refreshAirflow_keeps p s).mono (by decide)) (refreshAirflow_guard p s)]
    exact h
  unfold lapses
  cases i with
  | motor => exact absurd rfl hi
  | stage2 =>
    have h2 : (lapseStage .stage2 p (lapseMotor p (refreshAirflow p s))).loadOff ⟨p, .stage2⟩ := by
      unfold lapseStage
      rw [d]
      exact dropLoad_self _ _
    generalize lapseStage .stage2 p (lapseMotor p (refreshAirflow p s)) = u at h2
    unfold lapseStage
    split
    · exact h2
    · exact dropLoad_loadOff _ h2
  | stage1 =>
    have d' := lapseStage_demand (p := p) .stage2 .stage1 (lapseMotor p (refreshAirflow p s)) (by decide)
    rw [d] at d'
    generalize lapseStage .stage2 p (lapseMotor p (refreshAirflow p s)) = u at d'
    unfold lapseStage
    rw [d']
    exact dropLoad_self _ _

/-- What the outputs and the arbiter hold between the lapses and the requests. -/
def lapsed (s : State) : State := forPockets lapses s

theorem demand_congr {s t : State} (p : Pocket) (i : Item) (h : KeepsBut [.outputs, .arbiter] s t)
    (ho : t.output p = s.output p) : t.inDemand p i = s.inDemand p i := by
  have h1 : t.trackers = s.trackers := h .trackers (by decide)
  have h3 : t.lines = s.lines := h .lines (by decide)
  unfold State.inDemand State.tracker State.line
  rw [h1, h3, ho]

theorem lapses_guard (p : Pocket) (s : State) : ((lapses p s).output p).guard = (s.output p).guard := by
  have drop (m : Load) (s : State) : ((dropLoad m s).output p).guard = (s.output p).guard := by
    by_cases e : p = m.pocket
    · subst e
      unfold dropLoad
      show ((s.modOutput m.pocket _).output m.pocket).guard = _
      rw [output_modOutput_self]
      cases m.item <;> rfl
    · rw [dropLoad_output_ne _ _ e]
  have stage (i : Item) (s : State) : ((lapseStage i p s).output p).guard = (s.output p).guard := by
    unfold lapseStage; split
    · rfl
    · exact drop _ _
  have motor (s : State) : ((lapseMotor p s).output p).guard = (s.output p).guard := by
    unfold lapseMotor; split
    · rfl
    · exact drop _ _
  unfold lapses
  rw [stage, stage, motor, refreshAirflow_guard]

theorem lapses_motorAllowed (p q : Pocket) (s : State) : (lapses p s).motorAllowed q = s.motorAllowed q := by
  refine motorAllowed_congr q (lapses_keeps p s) ?_
  by_cases e : q = p
  · subst e; exact lapses_guard q s
  · rw [lapses_output_ne s e]

theorem requests_loadOff (p : Pocket) {l : Load} (h : s.loadOff l)
    (hm : l = ⟨p, .motor⟩ → s.motorAllowed p = false) (h1 : l = ⟨p, .stage1⟩ → s.inDemand p .stage1 = false)
    (h2 : l = ⟨p, .stage2⟩ → s.inDemand p .stage2 = false) : (requests p s).loadOff l := by
  have arb (b : Bool) (m : Load) (u : State) :
      (if b then requestLoad m u else u).inDemand p = u.inDemand p := by cases b <;> rfl
  have one (b : Bool) (m : Load) {u : State} (h : u.loadOff l) (hb : l = m → b = false) :
      (if b then requestLoad m u else u).loadOff l := by
    cases b with
    | false => exact h
    | true => exact requestLoad_loadOff _ h fun e => absurd (hb e) (by decide)
  unfold requests
  refine one _ _ (one _ _ (one _ _ h hm) ?_) ?_
  · intro e; rw [arb]; exact h1 e
  · intro e
    rw [arb, arb]
    exact h2 e

/-- What a pocket's conditions call for and the state between the lapses and the requests. -/
theorem settle_loadOff_of {l : Load} (h : (forPockets lapses s).loadOff l)
    (hm : l.item = .motor → s.motorAllowed l.pocket = false)
    (hs : l.item ≠ .motor → (forPockets lapses s).inDemand l.pocket l.item = false) : (settleOutputs s).loadOff l := by
  have allowed (q : Pocket) : (forPockets lapses s).motorAllowed q = s.motorAllowed q := by
    unfold forPockets; rw [lapses_motorAllowed, lapses_motorAllowed]
  unfold settleOutputs serveArbiter
  refine testHead_loadOff _ ?_
  generalize forPockets lapses s = u at *
  have req (p : Pocket) {v : State} (k : KeepsBut [.arbiter] u v) (hv : v.loadOff l) : (requests p v).loadOff l := by
    have o : v.output p = u.output p := by have := k .outputs (by decide); simp only [State.output]; rw [this]
    have kk : KeepsBut [.outputs, .arbiter] u v := k.mono (by decide)
    refine requests_loadOff p hv (fun e => ?_) (fun e => ?_) (fun e => ?_)
    · subst e
      rw [motorAllowed_congr p kk (by rw [o]), allowed]
      exact hm rfl
    · subst e
      rw [demand_congr p _ kk o]
      exact hs (by simp)
    · subst e
      rw [demand_congr p _ kk o]
      exact hs (by simp)
  have first := req .a (.refl _ _) h
  exact req .b ((requests_keeps .a u).mono (by decide)) first

/-- After settling, a motor that its conditions do not allow is off (R48, R49). -/
theorem settle_motor_off (s : State) (h : s.motorAllowed p = false) : (settleOutputs s).loadOff ⟨p, .motor⟩ := by
  refine settle_loadOff_of ?_ (fun _ => h) (fun e => absurd rfl e)
  cases p with
  | a => exact lapses_loadOff .b (lapses_motor_off s h)
  | b => exact lapses_motor_off _ (by rw [lapses_motorAllowed]; exact h)

/-- After settling, a stage that was not in demand, or whose motor is not allowed, is off (R50). -/
theorem settle_stage_off (s : State) (i : Item) (hi : i ≠ .motor)
    (h : s.inDemand p i = false ∨ s.motorAllowed p = false) : (settleOutputs s).loadOff ⟨p, i⟩ := by
  have lapsed (p : Pocket) (u : State) (h : u.inDemand p i = false ∨ u.motorAllowed p = false) :
      (lapses p u).inDemand p i = false := by
    unfold lapses
    rw [lapseStage_demand _ _ _ (by decide), lapseStage_demand _ _ _ (by decide)]
    refine lapseMotor_demand p i _ ?_
    rw [refreshAirflow_demand,
      motorAllowed_congr p ((refreshAirflow_keeps p u).mono (by decide)) (refreshAirflow_guard p u)]
    exact h
  cases p with
  | a =>
    refine settle_loadOff_of (lapses_loadOff .b (lapses_stage_off s i hi h)) (fun e => absurd e hi) (fun _ => ?_)
    show (lapses .b (lapses .a s)).inDemand .a i = false
    rw [demand_congr .a i (lapses_keeps .b _) (lapses_output_ne _ (by decide))]
    exact lapsed .a s h
  | b =>
    have h' : (lapses .a s).inDemand .b i = false ∨ (lapses .a s).motorAllowed .b = false := by
      rw [demand_congr .b i (lapses_keeps .a _) (lapses_output_ne _ (by decide)), lapses_motorAllowed]
      exact h
    have off : (lapses .b (lapses .a s)).loadOff ⟨.b, i⟩ := lapses_stage_off _ i hi h'
    have dem : (lapses .b (lapses .a s)).inDemand .b i = false := lapsed .b _ h'
    refine settle_loadOff_of ?_ (fun e => absurd e hi) (fun _ => ?_)
    · unfold forPockets; exact off
    · unfold forPockets; exact dem

/-- After settling, every load of a pocket whose motor is not allowed is off. -/
theorem settle_pocketOff (s : State) (h : s.motorAllowed p = false) : (settleOutputs s).pocketOff p := by
  intro i
  cases i with
  | motor => exact settle_motor_off s h
  | stage1 => exact settle_stage_off s _ (by decide) (.inr h)
  | stage2 => exact settle_stage_off s _ (by decide) (.inr h)

/-! ## What settling keeps -/

@[simp] theorem settle_pending (s : State) : (settleOutputs s).pending = s.pending := settleOutputs_keeps s .pending (by decide)
@[simp] theorem settle_supply (s : State) : (settleOutputs s).supply = s.supply := settleOutputs_keeps s .supply (by decide)
@[simp] theorem settle_lines (s : State) : (settleOutputs s).lines = s.lines := settleOutputs_keeps s .lines (by decide)
@[simp] theorem settle_rail (s : State) : (settleOutputs s).rail = s.rail := settleOutputs_keeps s .rail (by decide)
@[simp] theorem settle_trackers (s : State) : (settleOutputs s).trackers = s.trackers := settleOutputs_keeps s .trackers (by decide)
@[simp] theorem settle_frozen (s : State) : (settleOutputs s).frozen = s.frozen := settleOutputs_keeps s .frozen (by decide)
@[simp] theorem settle_silence (s : State) : (settleOutputs s).silence = s.silence := settleOutputs_keeps s .silence (by decide)
@[simp] theorem settle_mains (s : State) : (settleOutputs s).mains = s.mains := settleOutputs_keeps s .mains (by decide)
@[simp] theorem settle_alwaysOn (s : State) : (settleOutputs s).alwaysOn = s.alwaysOn := settleOutputs_keeps s .alwaysOn (by decide)
@[simp] theorem settle_array (s : State) : (settleOutputs s).array = s.array := settleOutputs_keeps s .array (by decide)
@[simp] theorem settle_writer (s : State) : (settleOutputs s).writer = s.writer := settleOutputs_keeps s .writer (by decide)
@[simp] theorem settle_capture (s : State) : (settleOutputs s).capture = s.capture := settleOutputs_keeps s .capture (by decide)
@[simp] theorem settle_scan (s : State) : (settleOutputs s).scan = s.scan := settleOutputs_keeps s .scan (by decide)
@[simp] theorem settle_scrub (s : State) : (settleOutputs s).scrub = s.scrub := settleOutputs_keeps s .scrub (by decide)
@[simp] theorem settle_link (s : State) : (settleOutputs s).link = s.link := settleOutputs_keeps s .link (by decide)
@[simp] theorem settle_settings (s : State) : (settleOutputs s).settings = s.settings := settleOutputs_keeps s .settings (by decide)
@[simp] theorem settle_defaulted (s : State) : (settleOutputs s).defaulted = s.defaulted := settleOutputs_keeps s .defaulted (by decide)
@[simp] theorem settle_tracker (s : State) (p : Pocket) : (settleOutputs s).tracker p = s.tracker p := by
  simp [State.tracker]
@[simp] theorem settle_line (s : State) (p : Pocket) : (settleOutputs s).line p = s.line p := by simp [State.line]
@[simp] theorem settle_stall (s : State) (p : Pocket) : (settleOutputs s).stall p = s.stall p := by simp [State.stall]
@[simp] theorem settle_capturing (s : State) : (settleOutputs s).capturing = s.capturing := by simp [State.capturing]
@[simp] theorem settle_scanning (s : State) : (settleOutputs s).scanning = s.scanning := by simp [State.scanning]
@[simp] theorem settle_discards (s : State) (p : Pocket) (r : CheckpointReason) :
    (settleOutputs s).discardsCheckpoint p r = s.discardsCheckpoint p r := by simp [State.discardsCheckpoint]

/-- Settling can only start the tumbles: the position, the boundary, the skipped count and the accumulator stay. -/
theorem settle_schedule (s : State) (p : Pocket) :
    ((settleOutputs s).schedule p).elapsed = (s.schedule p).elapsed := by
  have start (q : Pocket) (s : State) : ((startTumble q s).schedule p).elapsed = (s.schedule p).elapsed := by
    unfold startTumble
    split
    · cases p <;> cases q <;> rfl
    · rfl
  have turn (l : Load) (s : State) : ((turnOn l s).schedule p).elapsed = (s.schedule p).elapsed := by
    unfold turnOn
    split
    · rw [start]; rfl
    · rfl
  have revoke (r : List Load) (s : State) : (revokeStages r s).schedule p = s.schedule p := by
    have := revokeStages_keeps r s .schedules (by decide)
    simp only [State.schedule]; rw [this]
  have grant (l : Load) (s : State) : ((grantLoad l s).schedule p).elapsed = (s.schedule p).elapsed := by
    unfold grantLoad
    dsimp only
    rw [turn]
    show ((if l.item = .motor then revokeStages s.sheds s else s).schedule p).elapsed = _
    split
    · rw [revoke]
    · rfl
  have test (n : Nat) (s : State) : ((testHead n s).schedule p).elapsed = (s.schedule p).elapsed := by
    induction n generalizing s with
    | zero => rfl
    | succ n ih =>
      unfold testHead
      split
      · rfl
      · split
        · rw [ih, grant]
        · rfl
  unfold settleOutputs serveArbiter
  rw [test]
  have h : KeepsBut [.outputs, .arbiter] s (forPockets requests (forPockets lapses s)) :=
    (keeps_forPockets lapses_keeps s).trans ((keeps_forPockets requests_keeps _).mono (by decide))
  have := h .schedules (by decide)
  simp only [State.schedule]; rw [this]

end Sys2Proof.Machine
end

