-- ==== Sys2Proof/Laws/Scan.lean ====
section
/-! SUPPORT. What a move of the scan's pass can do (R127). -/

namespace Sys2Proof.Machine

/-- The pass, at the first slot from its cursor on that is not retired, 96 when every one is: the slots before it are
recorded as RETIRED, and it is read, or the scan enters RESOLVE (R127). -/
theorem passFrom_eq (fuel : Nat) (s : State) (k : Nat) (from_cursor : s.scan.cursor ≤ k) (in_range : k ≤ 96)
    (enough : k - s.scan.cursor < fuel)
    (skipped : ∀ j, s.scan.cursor ≤ j → j < k → j ∈ s.writer.retired) (next : k < 96 → k ∉ s.writer.retired) :
    passFrom fuel s =
      (if k < 96 then fun t : State => t.setWriter { t.writer with op := .scanRead k }
        else fun t : State => t.setScan { t.scan with phase := .resolve })
      (s.setScan { s.scan with
        summary := s.scan.summary ++
          (List.range (k - s.scan.cursor)).map fun j => ⟨s.scan.cursor + j, .retired, [], false⟩
        cursor := k }) := by
  induction fuel generalizing s with
  | zero => omega
  | succ n ih =>
    by_cases here : s.scan.cursor = k
    · subst here
      simp only [passFrom, Nat.sub_self, List.range_zero, List.map_nil, List.append_nil]
      by_cases h : s.scan.cursor < 96
      · simp [Config.slotCount, h, next h, show ¬ 96 ≤ s.scan.cursor by omega]
        rfl
      · simp [Config.slotCount, h, show 96 ≤ s.scan.cursor by omega]
        rfl
    · have before : s.scan.cursor < k := by omega
      have retired := skipped _ (Nat.le_refl _) before
      have rest := ih (s.setScan (s.scan.note ⟨s.scan.cursor, .retired, [], false⟩))
        (show s.scan.cursor + 1 ≤ k from before) (show k - (s.scan.cursor + 1) < n by omega)
        (fun j a b => skipped j (Nat.le_of_succ_le (show s.scan.cursor + 1 ≤ j from a)) b) next
      have range : List.range (k - s.scan.cursor) = 0 :: (List.range (k - (s.scan.cursor + 1))).map (· + 1) := by
        rw [show k - s.scan.cursor = (k - (s.scan.cursor + 1)) + 1 by omega, List.range_succ_eq_map]
      simp only [passFrom]
      rw [if_neg (by simp [Config.slotCount]; omega), if_pos (by simpa using retired), rest]
      simp [Scan.note, range, Function.comp_def, Nat.add_assoc, Nat.add_comm 1]
      rfl

end Sys2Proof.Machine
end

