-- ==== Sys2Proof/Tests/Slice0.lean ====
section
/-! SUPPORT. Tests: ill-formed commands refused, worked values of the manual, one small step for what a slip would show in, and for
each obligation with hypotheses a state and operands that meet them. -/

namespace Sys2Proof.Tests

open Sys2Proof.Machine

/-! ## States -/

/-- The programme of the manual's planning cases. -/
def prog : Programme := ⟨70, 2, .normal, 300, 240, 20, 7200, 1500⟩

/-- The context of planning case 1 (Worked Cases). -/
def context : Context := ⟨211, 150, .heat, 1260, 0, some 78, 24, 0, some prog, .timer, .none⟩

/-- The part with its scan done and the mains PRESENT. -/
def ready : State :=
  { State.reset with
    writer := Writer.start
    scan := { Scan.start with phase := .done }
    mains := { Mains.start with state := .present, hasRef := true, returnOwed := false }
    alwaysOn := { AlwaysOn.cold with marker := true, reserve := .ready } }

/-- Pocket A in a state, with the programme, the context and 900 paid seconds. -/
def inState (st : PocketState) : State :=
  ready.modTracker .a fun t =>
    { t with
      state := st
      programme := some prog
      cycleStamp := 150
      newestStamp := 211
      paid := 900
      context := some context }

/-- Pocket A's motor turns and its airflow is proven. -/
def turning (s : State) : State :=
  ((s.modOutput .a fun o => { o with motor := true, airflow := .proven }).modLine .a fun l =>
    { l with airMade := true }).setArbiter ⟨[], [⟨.a, .motor⟩], none⟩

/-- The writer writes a record into slot 7. -/
def writing (r : Request) (s : State) : State :=
  s.setWriter { s.writer with op := .record ⟨r, 0, 300, 7, r.bytes 300 150⟩ }

/-- A writer operation is in flight. -/
def doing (o : Operation) (s : State) : State := s.setWriter { s.writer with op := o }

/-- The mains in a state. -/
def mainsIs (m : MainsState) (s : State) : State := s.setMains { s.mains with state := m }

/-- A checkpoint body. -/
def body : Progress := ⟨.heat, 900, 0, 78, 24, false, true, 0, false, 0, 0⟩

/-- The plan of case 1. -/
def plan1 : Plan := planFor Settings.default context (some 1500)

/-- The state a command answers. -/
def after (c : Instr) (s : State) : State :=
  match exec c s with
  | .next t => t
  | .fault _ | .refused _ => s

/-! ## Ill-formed commands -/

theorem test_wf_openCycle : (Instr.openCycle 0 256 0 0 0 0 0 0 0 0).wf = false ∧
    (Instr.openCycle 0 0 256 0 0 0 0 0 0 0).wf = false ∧ (Instr.openCycle 0 0 0 256 0 0 0 0 0 0).wf = false ∧
    (Instr.openCycle 0 0 0 0 256 0 0 0 0 0).wf = false ∧ (Instr.openCycle 0 0 0 0 0 65536 0 0 0 0).wf = false ∧
    (Instr.openCycle 0 0 0 0 0 0 65536 0 0 0).wf = false ∧ (Instr.openCycle 0 0 0 0 0 0 0 65536 0 0).wf = false ∧
    (Instr.openCycle 0 0 0 0 0 0 0 0 65536 0).wf = false ∧ (Instr.openCycle 0 0 0 0 0 0 0 0 0 65536).wf = false := by
  decide

theorem test_wf_pay : (Instr.pay 0 256 1).wf = false ∧ (Instr.pay 0 0 65536).wf = false := by decide

theorem test_wf_telemetry : (Instr.telemetry 0 256 0 0).wf = false ∧ (Instr.telemetry 0 0 256 0).wf = false ∧
    (Instr.telemetry 0 0 0 (-129)).wf = false ∧ (Instr.telemetry 0 0 0 128).wf = false := by decide

theorem test_wf_heat : (Instr.heat 0 256 1).wf = false ∧ (Instr.heat 0 0 256).wf = false := by decide

theorem test_wf_pocket : (Instr.endHeat 0 256).wf = false ∧ (Instr.pause 0 256).wf = false ∧
    (Instr.resume 0 256).wf = false ∧ (Instr.stop 0 256).wf = false ∧ (Instr.clearLimit 0 256).wf = false ∧
    (Instr.planQuery 0 256).wf = false ∧ (Instr.planAdopt 0 256).wf = false ∧ (Instr.planDiscard 0 256).wf = false := by
  decide

theorem test_wf_journalRead : (Instr.journalRead 0 256 1).wf = false ∧ (Instr.journalRead 0 0 256).wf = false := by decide

theorem test_wf_settingsWrite : (Instr.settingsWrite 0 []).wf = false ∧
    (Instr.settingsWrite 0 (List.replicate 19 (1, 50))).wf = false ∧ (Instr.settingsWrite 0 [(256, 1)]).wf = false ∧
    (Instr.settingsWrite 0 [(1, 65536)]).wf = false := by decide

theorem test_wf_bytes : (Instr.breakDetected (List.replicate 63 0)).wf = false ∧
    (Instr.frameReceived (List.replicate 63 0)).wf = false := by decide +kernel

theorem test_wf_mainsEdge : (Instr.mainsEdge 10000 151 true).wf = false := by decide

theorem test_wf_decays : (Instr.settingsLoadDone (.wide [50] false)).wf = false ∧
    (Instr.settingsLoadDone (.wide (List.replicate 22 65536) false)).wf = false ∧
    (Instr.scanMapReadDone (.wide [3, 3] true)).wf = false ∧ (Instr.scanMapReadDone (.wide [96] true)).wf = false ∧
    (Instr.scanSlotReadDone (.wide [0x0E] false)).wf = false ∧
    (Instr.readoutReadDone (.wide [0x0E] false) true).wf = false ∧
    (Instr.scrubReadDone (.wide [0x0E] false) true).wf = false := by decide

theorem test_no_word_spells_a_command : decodeTableWord 8 0 = none ∧ ready.withFetchWord 8 0 = ready := by decide

/-! ## Worked values of the manual -/

/-- R180: the check of "123456789". -/
theorem test_check_of_digits : checkOf [0x31, 0x32, 0x33, 0x34, 0x35, 0x36, 0x37, 0x38, 0x39] = 0x29B1 := by decide +kernel

/-- Worked Cases, case 1: pocket A, cut off in heat, with a stall of 1500 s. -/
theorem test_plan_case1 : plan1.kind = .resumeHeat ∧ plan1.loadTemp = 42 ∧ plan1.paid = 1596 ∧ plan1.credit = 336 := by decide

/-- Worked Cases, case 2: pocket B, cut off in cool-down. -/
theorem test_plan_case2 :
    let l := planFor Settings.default { context with phase := .cool, paid := 150, exhaust := some 52 } (some 1500)
    l.kind = .resumeCool ∧ l.paid = 54 ∧ l.loadTemp = 34 ∧ l.credit = 0 := by decide

/-- Worked Cases, case 3: anti-crease at 3000 s. -/
theorem test_plan_case3 :
    let l := planFor Settings.default { context with phase := .anticrease, elapsed := 3000 } (some 1500)
    l.kind = .resumeAnticrease ∧ l.position = 4500 ∧ l.recovery = true
      ∧ (Schedule.begin 4500 240 20 true).boundary = some 4560 := by decide

/-- Worked Cases, case 4: 14401 s is held, P′ stops at 21600, an absent exhaust counts as the setpoint. -/
theorem test_plan_case4 :
    (planFor Settings.default context (some 14401)).kind = .holdStale ∧
    (planFor Settings.default { context with paid := 21500 } (some 1500)).credit = 100 ∧
    (planFor Settings.default { context with exhaust := none } (some 1500)).credit = 360 ∧
    (planFor Settings.default { context with phase := .cool, paid := 150 } none).kind = .resumeAnticrease := by decide

/-- The settings example: LOSS_PCT 75 before RETURN_PCT 90 is invalid at pair 0; the other way round the prefix has three
pairs. -/
theorem test_settings_prefix :
    (trySettings Settings.default 0 [(5, 75), (6, 90), (19, 200), (21, 50)]).2 = (0, some 0) ∧
    (trySettings Settings.default 0 [(6, 90), (5, 75), (19, 200), (21, 50)]).2 = (3, some 3) := by decide

/-- The read-out and journal examples: a CLOSE of pocket B with reason STOP and stamp 503, paid 140. -/
theorem test_close_bytes : ((⟨.b, .close .stop 140 0⟩ : Request).bytes 503 420).take 12
    = [0x05, 0x41, 0xF7, 0x01, 0, 0, 0xA4, 0x01, 0, 0, 140, 0] := by decide

/-- Worked Cases, case 1: the adoption body of the plan. -/
theorem test_adoption_body : adoptionBody plan1 (some 78) 24 0 false
    = [1, 0x3C, 0x06, 0, 0, 78, 24, 0, 0, 1, 0x50, 0x01, 0xDC, 0x05, 0, 52] := by decide

/-- R178: a PAY request carries three payload bytes and is nine bytes long. -/
theorem test_pay_frame : (frameBytes 0x03 7 (Message.pay 0 60).payload).take 7 = [0xB4, 3, 7, 3, 0, 60, 0] ∧
    (frameBytes 0x03 7 (Message.pay 0 60).payload).length = 9 := by decide

/-- R191: the STATUS reply has 48 bytes of payload. -/
theorem test_status_length : ((after (.status 1) ready).link.sending.map (·.payload.length)) = some 48 := by decide

/-! ## One step each -/

/-- R11: a PAY stops at 21600 s. -/
theorem test_pay_stops_at_the_maximum : let s := (inState .heat).modTracker .a fun t => { t with paid := 21590 }
    ((after (.pay 1 0 60) s).tracker .a).paid = 21600 := by decide

/-- R13: telemetry clamps, and the reply says so. -/
theorem test_telemetry_clamps : let t := after (.telemetry 1 0 200 (-20)) (inState .heat)
    (t.tracker .a).exhaust = some 150 ∧ (t.tracker .a).inlet = -10 ∧ t.link.sending.map (·.payload) = some [0, 3] := by decide

/-- R10: HEAT ends when P comes down to the cool length. -/
theorem test_heat_ends : let s := turning ((inState .heat).modTracker .a fun t => { t with paid := 301 })
    ((after (.paidSecond .a) s).tracker .a).state = .cool := by decide +kernel

/-- R48, R36: the boundary at 240 s makes the tumble due, and it is granted at once. -/
theorem test_boundary_grants_a_tumble :
    let s := (inState .anticrease).modSchedule .a fun _ => { Schedule.start with elapsed := 239, boundary := some 240 }
    let t := after (.anticreaseSecond .a) s
    (t.schedule .a).tumble = .running ∧ (t.schedule .a).tumbleEnd = some 260 ∧ (t.output .a).motor = true := by decide +kernel

/-- R20: a door opening in ANTICREASE closes the cycle. -/
theorem test_door_closes_anticrease : ((after (.doorOpen .a) (inState .anticrease)).tracker .a).state = .closing .door := by
  decide +kernel

/-- R55, R21: the first trip latches and is counted. -/
theorem test_first_trip : let t := after (.limitTrip .a) (turning (inState .heat))
    (t.output .a).latch = true ∧ (t.tracker .a).trips = 1 ∧ (t.tracker .a).state = .heat := by decide +kernel

/-- R81: a missing edge in PRESENT enters FALTERING and freezes the clocks. -/
theorem test_missing_edge : let t := after (.missingEdge true) (turning (inState .heat))
    t.mains.state = .faltering ∧ t.frozen = true ∧ (t.output .a).motor = false ∧ (t.stall .a).running = true := by decide +kernel

/-- R83: the third missing edge is LOST. -/
theorem test_third_missing_edge :
    let m := { (mainsIs .faltering ready).mains with missing := 2 }
    let s := (mainsIs .faltering (inState .heat)).setMains m
    ((after (.missingEdge true) s).tracker .a).state = .pending := by decide +kernel

/-- R183: a third waiting reply is an OVERRUN. -/
theorem test_overrun : let f := replyFrame 1 1 .ok []
    let s := ready.setLink { ready.link with sending := some f, waiting := [f, f] }
    (after (.pay 1 0 60) s).link.counters.overrun = 1 := by decide

/-- R181: a first byte other than 0xB4 is a LEAD error and nothing else. -/
theorem test_lead_error : let s := ready.setLink { ready.link with receiver := .lead }
    (after (.frameReceived [0xB5, 0xB4]) s).link.counters = ⟨0, 0, 0, 0, 1, 0⟩ := by decide

/-- R127, R123: a TORN slot found by the scan is erased and counts as lost. -/
theorem test_torn_slot : let s := doing (.scanRead 3) (ready.setScan { Scan.start with phase := .pass, cursor := 3 })
    let t := after (.scanSlotReadDone .twoBits) s
    t.writer.op = .erase 3 .torn ∧ t.writer.lost = 1 := by decide

/-- R111: a mismatch retires the target and the map is written. -/
theorem test_mismatch_retires :
    let s := writing ⟨.a, .checkpoint .pay body⟩ (inState .heat)
    let t := after (.recordAttemptDone (.mismatched .old) true) s
    t.writer.op = .mapWrite false ∧ t.writer.retired = [7] := by decide +kernel

/-- R95: below the reserve floor the always-on domain loses its state. -/
theorem test_floor_loss : (after .reserveFloorLoss ready).alwaysOn.marker = false := by decide

/-! ## Witnesses: what the obligations suppose can be met -/

theorem witness_PocketMessagesRefusedByPocket : pocketFields (.pay 1 2 60) = some (0x03, 1, 2) ∧
    pocketFields (.pay 1 0 60) = some (0x03, 1, pocketIndex .a) ∧ ready.takesMessages = true ∧
    (inState .opening).takesMessages = true ∧ ((inState .opening).tracker .a).state.busy = true := by decide

theorem witness_OpenCycleAccepted : ready.takesMessages = true ∧ (ready.tracker .a).state = .free ∧
    ready.lossInProgress = false ∧ (ready.line .a).doorOpen = false ∧ ready.writer.worn = false := by decide

/-- The operands stand at the ends of their ranges (R5). -/
theorem witness_OpenCycleAccepted_edges :
    programmeFault 40 1 0 60 60 0 0 60 = none ∧ programmeFault 80 2 2 900 900 900 7200 21600 = none := by decide

theorem witness_OpenCycleRefused :
    (inState .pending).takesMessages = true ∧ ((inState .pending).tracker .a).state.busy = false ∧
    ((inState .heat).tracker .a).state ≠ .free ∧ ((inState .heat).tracker .a).state ≠ .pending ∧
    (mainsIs .lost ready).lossInProgress = true ∧ (mainsIs .lost ready).takesMessages = true ∧
    ((ready.modLine .a fun l => { l with doorOpen := true }).line .a).doorOpen = true ∧
    (ready.setWriter { ready.writer with worn := true }).writer.worn = true ∧
    [within 40 80 39, within 1 2 1].findIdx? (! ·) = some 0 ∧
    [within 40 80 40, within 1 2 1, within 0 2 0, within 60 900 60, within 60 900 60, within 0 900 0, within 0 7200 0,
      within 60 21600 59].findIdx? (! ·) = some 7 := by decide

theorem witness_PayOfALivePocket : (inState .heat).takesMessages = true ∧ ((inState .heat).tracker .a).state.paying = true ∧
    (inState .heat).capturing = false ∧ (inState .heat).discardsCheckpoint .a .pay = false ∧
    ((inState (.paused .cool)).tracker .a).state.paying = true ∧ (inState .cool).discardsCheckpoint .a .pay = false := by
  decide

theorem witness_PayOfAPendingPocket : (inState .pending).takesMessages = true ∧
    ((inState .pending).tracker .a).state = .pending ∧ ((inState .pending).tracker .a).context = some context ∧
    (inState .pending).capturing = false ∧ (inState .pending).discardsCheckpoint .a .pay = false := by decide

theorem witness_CycleMessagesRefused :
    let standing := ready.setCapture { Capture.start with state := .standing }
    let shut := (inState (.paused .heat)).modLine .a fun l => { l with doorOpen := true }
    let lead := ready.setLink { ready.link with receiver := .lead }
    ready.takesMessages = true ∧ (ready.tracker .a).state.busy = false ∧ (ready.tracker .a).state = .free ∧
    standing.takesMessages = true ∧ (standing.tracker .a).state.busy = false ∧ standing.capturing = true ∧
    shut.takesMessages = true ∧ (shut.tracker .a).state = .paused .heat ∧ (shut.line .a).doorOpen = true ∧
    lead.takesMessages = true ∧ (lead.tracker .a).state.busy = false ∧ lead.link.receiver = .lead ∧ 4 ≤ 4 ∧ 255 < 256 := by
  decide

theorem witness_TelemetryAndHeatStored : (inState .heat).takesMessages = true ∧ ((inState .heat).tracker .a).state = .heat ∧
    ((inState .heat).tracker .a).state.busy = false ∧ ((inState .heat).tracker .a).programme = some prog := by decide

theorem witness_EndHeatForfeits : (inState .heat).takesMessages = true ∧ ((inState .heat).tracker .a).state = .heat ∧
    (inState .heat).discardsCheckpoint .a .phase = false := by decide

theorem witness_PauseAndResume : (inState .cool).takesMessages = true ∧
    (inState .cool).discardsCheckpoint .a .pause = false ∧ ((inState .cool).tracker .a).state = RunPhase.cool.state ∧
    ((inState (.paused .heat)).tracker .a).state = .paused .heat ∧ ((inState (.paused .heat)).line .a).doorOpen = false ∧
    (inState (.paused .heat)).discardsCheckpoint .a .pause = false := by decide

theorem witness_StopCloses : (inState .anticrease).takesMessages = true ∧
    ((inState .anticrease).tracker .a).state.active = true ∧ ((inState (.held .limit)).tracker .a).state.active = true := by
  decide

theorem witness_ClearLimit :
    let s := (inState .heat).modOutput .a fun o => { o with latch := true }
    s.takesMessages = true ∧ (s.tracker .a).state.busy = false ∧ (s.tracker .a).state.paying = true ∧
    (s.line .a).limTripped = false ∧ (ready.tracker .a).state.paying = false ∧
    ((s.modLine .a fun l => { l with limTripped := true }).line .a).limTripped = true := by decide

theorem witness_PaidSecondCounts :
    let heat := turning ((inState .heat).modTracker .a fun t => { t with paid := 301 })
    let cool := turning ((inState .cool).modTracker .a fun t => { t with paid := 1 })
    heat.on = true ∧ heat.paidCounts .a = true ∧ (heat.tracker .a).paid - 1 = (heat.tracker .a).coolLen ∧
    heat.discardsCheckpoint .a .phase = false ∧ cool.paidCounts .a = true ∧ (cool.tracker .a).paid - 1 = 0 ∧
    (cool.tracker .a).limit ≠ 0 ∧
    ((cool.modTracker .a fun t => { t with programme := some { prog with limit := 0 } }).tracker .a).limit = 0 := by decide

theorem witness_AnticreaseSecond :
    let s (e : Nat) (b : Option Nat) (t : Tumble) (x : Option Nat) : State :=
      (inState .anticrease).modSchedule .a fun _ => ⟨e, 0, b, t, x, 0⟩
    (s 7199 (some 7200) .due none).on = true ∧ (s 7199 (some 7200) .due none).frozen = false ∧
    ((s 7199 (some 7200) .due none).tracker .a).limit ≤ 7199 + 1 ∧
    ((s 239 (some 240) .rest none).schedule .a).boundary = some (239 + 1) ∧
    239 + 1 < ((s 239 (some 240) .rest none).tracker .a).limit ∧
    ((s 479 (some 480) .running (some 480)).schedule .a).tumbleEnd = some (479 + 1) ∧
    ((turning (s 479 (some 480) .running (some 480))).output .a).motor = true := by decide

theorem witness_loadsAgree : (turning (inState .heat)).loadsAgree :=
  ⟨by unfold Arbiter.proper; decide, fun ⟨p, i⟩ => by cases p <;> cases i <;> decide⟩

theorem witness_SettlingKeepsTheInterlocks : ∀ p : Pocket,
    ((turning (inState .heat)).output p).stage1 = true ∨ ((turning (inState .heat)).output p).stage2 = true →
    (turning (inState .heat)).mains.state = .present := fun p => by cases p <;> decide

theorem witness_guarded : (turning (inState .heat)).guarded :=
  ⟨witness_loadsAgree, fun p => by unfold State.interlocked; cases p <;> decide, by decide⟩

theorem witness_budgeted : (turning (inState .heat)).budgeted := by
  unfold State.budgeted State.withinBudget
  decide

theorem witness_recordsFit : (turning (inState .heat)).recordsFit :=
  ⟨by decide, fun p => by cases p <;> exact ⟨by decide, by decide, fun r h => absurd h (by decide +revert)⟩,
    fun h => absurd h (by decide), by decide⟩

/-- With `witness_loadsAgree`: a step of that state answers next. -/
theorem witness_StepKeepsTheLoadsInAgreement : step (turning (inState .heat)) = .next (tick (turning (inState .heat))) := rfl

theorem witness_DoorOpens : (inState .heat).on = true ∧ ((inState .heat).line .a).doorOpen = false ∧
    ((inState .heat).tracker .a).state = RunPhase.heat.state ∧ (inState .heat).discardsCheckpoint .a .pause = false ∧
    ((inState .opening).tracker .a).state = .opening ∧ ((inState (.held .stale)).tracker .a).state = .held .stale := by decide

theorem witness_DoorClosesAndLimitReturns :
    let s := (inState .heat).modLine .a fun l => { l with doorOpen := true }
    s.on = true ∧ (s.line .a).doorOpen = true ∧ s.motorWanted .a = true ∧ s.mains.state.carriesMotors = true := by decide

theorem witness_LimitTrips :
    let s := (inState .heat).modTracker .a fun t => { t with trips := 1 }
    s.on = true ∧ (s.line .a).limTripped = false ∧ (s.output .a).latch = false ∧ (s.tracker .a).state.paying = true ∧
    min 2 ((s.tracker .a).trips + 1) = 2 ∧ min 2 (((inState .heat).tracker .a).trips + 1) ≠ 2 ∧
    s.discardsCheckpoint .a .limit = false := by decide

theorem witness_AirflowBreaksMakesAndProves :
    let s := turning (inState .heat)
    let broken := (s.modOutput .a fun o => { o with airflow := .unmade }).modLine .a fun l => { l with airMade := false }
    s.on = true ∧ (s.output .a).motor = true ∧ s.motorAllowed .a = true ∧ (s.line .a).airMade = true ∧
    (s.output .a).airflow = .proven ∧ (broken.line .a).airMade = false ∧ (broken.output .a).airflow = .unmade ∧
    broken.motorAllowed .a = true := by decide

theorem witness_AirflowFaultHolds :
    let s := (turning (inState .heat)).modOutput .a fun o => { o with airflow := .timing }
    s.on = true ∧ (s.output .a).motor = true ∧ s.motorAllowed .a = true ∧ (s.tracker .a).state = .heat ∧
    (s.output .a).airflow = .timing ∧ s.discardsCheckpoint .a .phase = false := by decide

theorem witness_TimersExpire : (inState .heat).on = true ∧ (inState .heat).frozen = false ∧
    ((inState .heat).tracker .a).state.lossPhase = some .heat ∧ (inState .heat).discardsCheckpoint .a .periodic = false ∧
    ((inState (.held .stale)).tracker .a).state = .held .stale ∧ ((inState .pending).tracker .a).state = .pending ∧
    (ready.setSilence ⟨true, some 1, false⟩).silence.left = some 1 := by decide

theorem witness_SettlingStaysWithinTheBudget : ready.settings.consistent = true ∧ (turning (inState .heat)).arbiter.proper ∧
    (turning (inState .heat)).withinBudget := by
  unfold Arbiter.proper State.withinBudget
  decide

theorem witness_RequestsTakeTheirPlace :
    let motors : List Load := [⟨.b, .motor⟩]
    let stages : List Load := [⟨.a, .stage2⟩]
    (∀ m ∈ motors, m.item = .motor) ∧ (∀ m ∈ stages, m.item ≠ .motor) ∧ (⟨.a, .stage2⟩ : Load) ∈ stages ∧
    (⟨.a, .stage1⟩ : Load) ∉ motors ++ stages ∧ (⟨motors ++ stages, [], none⟩ : Arbiter).proper := by
  unfold Arbiter.proper
  decide

theorem witness_RequestsTakeTheirPlace_ordered : (⟨[], [], none⟩ : Arbiter).ordered := fun _ ahead _ h => by
  cases ahead <;> simp at h

/-- A stage waits for the stagger interval with the motor on. -/
def waitingStage : State :=
  ((turning (inState .heat)).modTracker .a fun t => { t with level := 1 }).setArbiter
    ⟨[⟨.a, .stage1⟩], [⟨.a, .motor⟩], some 1999⟩

theorem witness_StaggerElapsedTestsTheHead : waitingStage.on = true ∧ waitingStage.settled ∧
    waitingStage.arbiter.queue = [⟨.a, .stage1⟩] ∧ 0 < waitingStage.settings.stagger ∧
    waitingStage.mains.state = .present ∧
    loadOf waitingStage.settings waitingStage.arbiter.granted + waitingStage.settings.stageI
      ≤ waitingStage.settings.budget := by
  unfold State.settled
  decide +kernel

/-- Pocket A heats with both stages, and pocket B's motor, which waits for its tumble, heads the queue: one stage has to go. -/
def waitingMotor : State :=
  ((((turning (inState .heat)).modTracker .a fun t => { t with level := 2 }).modOutput .a fun o =>
      { o with stage1 := true, stage2 := true }).modTracker .b fun t =>
      { t with state := .anticrease, programme := some prog }).modSchedule .b (fun _ => ⟨240, 0, some 480, .due, none, 0⟩)
    |>.setArbiter ⟨[⟨.b, .motor⟩], [⟨.a, .motor⟩, ⟨.a, .stage1⟩, ⟨.a, .stage2⟩], some 1999⟩

theorem witness_StaggerElapsedTestsTheHead_motor : waitingMotor.on = true ∧ waitingMotor.settled ∧
    waitingMotor.arbiter.queue = [⟨.b, .motor⟩] ∧ 0 < waitingMotor.settings.stagger ∧ waitingMotor.mains.state = .present ∧
    (waitingMotor.tracker .b).state = .anticrease ∧ (waitingMotor.schedule .b).tumble = .due ∧
    (waitingMotor.schedule .b).boundary = some 480 := by
  unfold State.settled
  decide +kernel

theorem witness_EdgesInPresentAndSag :
    let s := (turning (inState .heat)).setMains { ready.mains with lowRun := 3 }
    let sag := (mainsIs .sag ready).setMains { (mainsIs .sag ready).mains with recoveryRun := 3 }
    s.on = true ∧ s.settings.lossPct ≤ 60 ∧ 60 < s.settings.sagPct ∧ 84 < s.settings.sagPct ∧ s.settings.sagPct ≤ 85 ∧
    4 ≤ s.mains.lowRun + 1 ∧ s.mains.state = .present ∧ (s.output .a).motor = true ∧ s.motorAllowed .a = true ∧
    sag.mains.state = .sag ∧ sag.settings.sagPct + 5 ≤ 90 ∧
    89 < sag.settings.sagPct + 5 ∧ 4 ≤ sag.mains.recoveryRun + 1 := by decide

theorem witness_EdgesInLostAndQualifying :
    let m : Mains := { (mainsIs .qualifying ready).mains with qual := 99, returnOwed := true }
    let q := (mainsIs .qualifying ready).setMains m
    let warm := (mainsIs .qualifying (inState .pending)).setMains m
    q.on = true ∧ q.settings.lossPct ≤ 80 ∧ q.settings.returnPct ≤ 80 ∧ 79 < q.settings.returnPct ∧
    (mainsIs .lost ready).mains.state = .lost ∧ q.mains.state = .qualifying ∧ q.mains.counted = 0 ∧
    85 * q.mains.halfUs ≤ 100 * 8500 ∧ 100 * 11500 ≤ 115 * q.mains.halfUs ∧ q.settings.qualN ≤ q.mains.qual + 1 ∧
    ready.mains.qual + 1 < ready.settings.qualN ∧
    warm.on = true ∧ warm.scanning = false ∧ warm.mains.returnOwed = true ∧ (warm.tracker .a).state = .pending ∧
    (warm.line .a).doorOpen = false ∧ (warm.tracker .a).context = some context ∧ context.phase = .heat ∧
    (warm.settings.hazard : Int) ≤ context.loadTemp warm.settings (some 0) ∧
    (State.reset.setMains m).scanning = true := by decide

theorem witness_MissingEdgeEntersFaltering :
    let s := (inState .heat).setWriter { Writer.start with
      queue := [⟨.a, .checkpoint .periodic body⟩, ⟨.b, .close .stop 0 0⟩] }
    let busy := (inState .heat).setCapture { Capture.start with state := .writing }
    let counted := s.setMains { s.mains with counted := 1 }
    s.on = true ∧ s.mains.state = .present ∧ s.capturing = false ∧
    (∀ r ∈ s.writer.queue, r.data.isCheckpoint = true ∨ r.data.isClose = true) ∧
    (s.tracker .a).state.lossPhase = some .heat ∧ (s.tracker .b).state.lossPhase = none ∧
    busy.on = true ∧ busy.mains.state = .present ∧ busy.capturing = true ∧ busy.capture.ended = false ∧
    s.mains.state ≠ .lost ∧ 49 < s.settings.lossPct ∧ s.mains.counted = 0 ∧ counted.mains.counted ≠ 0 := by decide

theorem witness_MissingEdgeLosesTheMains :
    let s := (mainsIs .faltering (inState .heat)).setMains { (mainsIs .faltering ready).mains with missing := 2 }
    let taken := takeSnapshot .a s
    taken.on = true ∧ taken.mains.state = .faltering ∧ taken.settings.missN ≤ taken.mains.missing + 1 ∧
    (taken.tracker .a).state.lossPhase = some .heat ∧ (taken.tracker .a).snapshot.isSome = true ∧
    (mainsIs .qualifying ready).mains.state = .qualifying ∧
    (mainsIs .faltering ready).mains.missing + 1 < ready.settings.missN := by decide

theorem witness_GoodEdgeRidesThrough :
    let s := mainsIs .faltering (inState .heat)
    s.on = true ∧ s.mains.state = .faltering ∧ s.mains.missing < s.settings.missN ∧ s.settings.lossPct ≤ 99 ∧
    s.mains.hasRef = true ∧ s.mains.counted = 0 ∧ 85 * s.mains.halfUs ≤ 100 * 10000 ∧
    100 * 10000 ≤ 115 * s.mains.halfUs ∧ s.capture.restart = false ∧ s.writer.closing .a = false ∧
    (s.tracker .a).state.lossPhase = some .heat := by decide

theorem witness_SagLossIsLost :
    let s := mainsIs .sag (inState .heat)
    s.on = true ∧ s.mains.state = .sag ∧ s.capturing = false ∧ s.writer.queue = [] ∧ s.scanning = false ∧
    ready.mains.state ≠ .sag := by decide

theorem witness_AlwaysOnEvents : (ready.modStall .a fun _ => ⟨true, 1048574, .firm, 0⟩).stall .a = ⟨true, 1048574, .firm, 0⟩ ∧
    (after .reserveFloorLoss ready).alwaysOn.reserve = .belowFloor ∧ State.reset.alwaysOn.reserve = .belowReady ∧
    ready.alwaysOn.reserve = .ready ∧ ready.on = true := by decide

theorem witness_TargetIsTheFirstEligibleSlot : Writer.start.target none = some 0 ∧
    ({ Writer.start with retired := List.range 96 }).target none = none := by decide

theorem witness_ServingLeavesTheCyclesAlone : ready.canWrite = true ∧ ready.scanning = false ∧
    State.reset.writer.op ≠ .idle := by decide

/-- The writer is idle, with what the change puts before it. -/
def waits (f : Writer → Writer) : State := ready.setWriter (f Writer.start)

theorem witness_ServingStartsTheOldestRequest :
    let last := waits fun w => { w with queue := [⟨.a, .close .stop 0 0⟩], counter := some 4294967295 }
    let spent := waits fun w => { w with queue := [⟨.a, .close .stop 0 0⟩], counter := none }
    let again := waits fun w => { w with carried := some (⟨.a, .close .stop 0 0⟩, 1) }
    let copies := waits fun w => { w with job := some ⟨.patrol, 5, .copy erasedBytes 0⟩ }
    let erases := waits fun w => { w with job := some ⟨.patrol, 5, .eraseOriginal⟩ }
    (waits fun w => { w with mapDue := .second }).writer.mapDue ≠ .no ∧
    last.on = true ∧ last.scanning = false ∧ last.capturing = false ∧ last.writer.op = .idle ∧ last.writer.mapDue = .no ∧
    last.writer.carried = none ∧ last.writer.job = none ∧ last.writer.target none = some 0 ∧
    spent.writer.counter = none ∧ spent.writer.demands = [] ∧ spent.writer.readAsked = none ∧
    spent.writer.settingsAsked = false ∧ spent.scrub.asked = false ∧
    again.writer.carried = some (⟨.a, .close .stop 0 0⟩, 1) ∧ again.writer.counter = some 1 ∧
    copies.writer.job = some ⟨.patrol, 5, .copy erasedBytes 0⟩ ∧ copies.writer.target (some 5) = some 0 ∧
    erases.writer.job = some ⟨.patrol, 5, .eraseOriginal⟩ ∧ erases.writer.protects 5 = false ∧
    5 ∉ erases.writer.retired := by decide

theorem witness_ServingStartsTheOldestRequest_link :
    let own := waits fun w => { w with demands := [⟨5, .validCorrected erasedBytes, true⟩] }
    let torn := waits fun w => { w with demands := [⟨5, .torn, false⟩] }
    let read := (waits fun w => { w with readAsked := some 6, retired := [6] }).setLink
      { ready.link with stream := some ⟨7, 6, 1, 1⟩ }
    let patrol := (waits id).setScrub { ready.scrub with asked := true, unfinished := some 9 }
    own.writer.demands.find? (·.own) = some ⟨5, .validCorrected erasedBytes, true⟩ ∧
    own.writer.target (some 5) = some 0 ∧ own.scrub.unfinished = none ∧
    torn.writer.demands.find? (·.own) = none ∧ torn.writer.protects 5 = false ∧ 5 ∉ torn.writer.retired ∧
    read.writer.readAsked = some 6 ∧ 6 ∈ read.writer.retired ∧ read.link.stream = some ⟨7, 6, 1, 1⟩ ∧
    (waits fun w => { w with settingsAsked := true }).writer.settingsAsked = true ∧
    patrol.scrub.asked = true ∧ patrol.mains.state = .present ∧ patrol.scrub.unfinished = some 9 ∧
    ready.patrolSlot = some 0 := by decide

theorem witness_RecordsReadBack :
    programmeFault prog.setpoint prog.maxStages prog.loadClass.code prog.coolLen prog.period prog.tumble prog.limit
      prog.initialPaid = none ∧ prog.coolLen < 65536 ∧ prog.initialPaid ≤ 21600 ∧ body.paid ≤ 21600 ∧ body.elapsed ≤ 7200 ∧
    body.exhaust ≤ 150 ∧ -10 ≤ body.inlet ∧ body.inlet ≤ 60 ∧ body.trips ≤ 2 ∧ plan1.phase = some .heat ∧
    plan1.paid ≤ 21600 ∧ plan1.position ≤ 7200 ∧ 0 < 4294967295 ∧ 4294967295 < 4294967296 := by decide

theorem witness_OpenRecordCompletes :
    let s := writing ⟨.a, .openCycle prog false⟩ ((inState .opening).setLink
      { ready.link with inFlight := some ⟨0x02, 7, .opened .a⟩ })
    let again := writing ⟨.a, .openCycle prog true⟩ (inState .heat)
    s.on = true ∧ s.array.wf = true ∧ (s.tracker .a).state = .opening ∧ s.frozen = false ∧ s.mains.state ≠ .lost ∧
    s.capturing = false ∧ s.link.inFlight = some ⟨0x02, 7, .opened .a⟩ ∧
    again.on = true ∧ again.array.wf = true ∧ (again.tracker .a).state.lossPhase = some .heat ∧
    again.discardsCheckpoint .a .reemit = false ∧ (∀ r ∈ again.writer.carried, r.1.closeOf .a = false) := by decide

/-- The mains is LOST, and the capture of a sag-loss waits for the record in flight. -/
def lossOn (s : State) : State := (mainsIs .lost s).setCapture { Capture.start with state := .finishing, reason := some .sag }

theorem witness_OpenRecordCompletes_loss :
    let s := lossOn (writing ⟨.a, .openCycle prog false⟩ ((inState .opening).setLink
      { ready.link with inFlight := some ⟨0x02, 7, .opened .a⟩ }))
    s.on = true ∧ s.array.wf = true ∧ (s.tracker .a).state = .opening ∧ s.capturing = true ∧ s.capture.ended = false ∧
    s.capture.reason = some .sag ∧ s.mains.state = .lost ∧ (s.stall .a).running = false ∧
    s.link.inFlight = some ⟨0x02, 7, .opened .a⟩ := by decide

theorem witness_CheckpointAndLossAttemptsEnd :
    let s := writing ⟨.a, .loss .mains body⟩ (inState .heat)
    s.on = true ∧ s.array.wf = true ∧ s.writer.op = .record ⟨⟨.a, .loss .mains body⟩, 0, 300, 7,
      (⟨.a, .loss .mains body⟩ : Request).bytes 300 150⟩ ∧ (RecordData.loss .mains body).isLoss = true ∧
    (RecordData.checkpoint .pay body).isCheckpoint = true := by decide

theorem witness_CloseRecordCompletes :
    let s := writing ⟨.a, .close .discard 1260 0⟩ ((inState (.closing .discard)).setLink
      { ready.link with inFlight := some ⟨0x0A, 7, .discarded .a⟩ })
    s.on = true ∧ s.array.wf = true ∧ s.link.inFlight = some ⟨0x0A, 7, .discarded .a⟩ := by decide

theorem witness_AreaWritesEnd :
    let s := doing (.settingsWrite false) (ready.setLink { ready.link with inFlight := some ⟨0x0D, 7, .settings 2 none⟩ })
    let part := doing (.settingsWrite true) (ready.setLink
      { ready.link with inFlight := some ⟨0x0D, 7, .settings 2 (some 2)⟩ })
    s.on = true ∧ s.writer.op = .settingsWrite false ∧ s.link.inFlight = some ⟨0x0D, 7, .settings 2 none⟩ ∧
    part.writer.op = .settingsWrite true ∧ part.link.inFlight = some ⟨0x0D, 7, .settings 2 (some 2)⟩ ∧
    (doing (.mapWrite true) ready).writer.op = .mapWrite true := by decide

theorem witness_EraseTestEnds :
    let s := doing (.erase 95 .torn) ready
    let starts := waits fun w => { w with job := some ⟨.scan, 95, .erase .torn⟩ }
    let scan := doing (.erase 95 .duplicate) (ready.setScan { Scan.start with
      phase := .resolve
      summary := [⟨95, .valid, erasedBytes, false⟩] })
    s.on = true ∧ s.scanning = false ∧ s.writer.op = .erase 95 .torn ∧ s.array.wf = true ∧
    starts.on = true ∧ starts.writer.op = .idle ∧ starts.writer.mapDue = .no ∧
    starts.writer.job = some ⟨.scan, 95, .erase .torn⟩ ∧ starts.writer.protects 95 = false ∧ 95 ∉ starts.writer.retired ∧
    starts.capturing = false ∧ starts.writer.carried = none ∧
    scan.on = true ∧ scan.array.wf = true ∧ scan.writer.op = .erase 95 .duplicate ∧ scan.scan.phase = .resolve := by decide

theorem witness_RelocationCopyEnds :
    let s := (doing (.copy ⟨5, 9, erasedBytes, 3⟩) ready).setWriter { (doing (.copy ⟨5, 9, erasedBytes, 3⟩) ready).writer with
      job := some ⟨.patrol, 5, .finish⟩ }
    s.on = true ∧ s.writer.op = .copy ⟨5, 9, erasedBytes, 3⟩ ∧ s.writer.job = some ⟨.patrol, 5, .finish⟩ ∧
    s.array.wf = true := by decide

theorem witness_ScanReadsEnd : State.reset.on = true ∧ State.reset.array.wf = true ∧
    State.reset.writer.op = .settingsLoad ∧ State.reset.array.settings = ⟨Settings.default.wire, .sound⟩ ∧
    Settings.default.consistent = true ∧ Settings.default.abandon % 10 = 0 ∧
    ({ Settings.default with lossPct := 99 } : Settings).consistent = false ∧
    (doing .scanMapRead State.reset).writer.op = .scanMapRead ∧ State.reset.array.map.integrity = .sound ∧
    (doing (.scanRead 95) State.reset).writer.op = .scanRead 95 := by decide

/-- The summary of a scan that found two copies of an OPEN of pocket A and its checkpoint, which was corrected. -/
def found : List SlotNote :=
  let opens : List Byte := (⟨.a, .openCycle prog false⟩ : Request).bytes 150 0
  [⟨3, .valid, opens, false⟩, ⟨5, .valid, opens, false⟩,
    ⟨7, .valid, (⟨.a, .checkpoint .pay body⟩ : Request).bytes 211 150, true⟩]

/-- R128: of the two copies the lower goes. -/
theorem test_duplicates : ({ Scan.start with phase := .resolve, summary := found } : Scan).duplicates = [3] := by decide +kernel

theorem witness_ScanReadsEnd_after :
    let scans (c : Scan) : State := (waits id).setScan c
    let index := scans { Scan.start with phase := .resolve, summary := found.drop 1 }
    let done := scans { Scan.start with phase := .repair, summary := found.drop 1, index := ⟨⟨some 7, some 5⟩, ⟨none, none⟩⟩ }
    let resolve := scans { Scan.start with phase := .resolve, summary := found, erasures := [3] }
    let repair := scans { Scan.start with phase := .repair, summary := found, repairs := [7] }
    let passes (retired : List Nat) : State := (waits fun w => { w with retired := retired }).setScan
      { Scan.start with phase := .pass, summary := found, cursor := 94 }
    resolve.scan.erasures = [3] ∧ (resolve.scan.noteOf 3).map (·.corrected) = some false ∧
    repair.scan.repairs = [7] ∧ (repair.scan.noteOf 7).map (·.condition) = some .valid ∧
    (passes [94]).scan.cursor = 94 ∧ (passes [94]).writer.retired = [94] ∧ (passes [94, 95]).writer.retired = [94, 95] ∧
    (passes [94, 95]).writer.mapDue = .no ∧ (passes [94, 95]).writer.job = none ∧
    (passes [94, 95]).scan.duplicates = [3] ∧
    index.writer.mapDue = .no ∧ index.writer.job = none ∧ index.scan.erasures = [] ∧
    (index.scan.newestOf .a).map (·.slot) = some 7 ∧ index.scan.newestOf .b = none ∧
    done.scan.repairs = [] ∧ ((done.scan.index.get .a).newest.bind done.scan.noteOf).map (·.slot) = some 7 ∧
    ((done.scan.index.get .a).newest.bind done.scan.noteOf).map (fun n => endsPending n.bytes) = some true := by decide +kernel

theorem witness_ReadoutAndScrubReadsEnd :
    let s := (doing (.readoutRead 95 true) ready).setLink { ready.link with stream := some ⟨7, 95, 1, 1⟩ }
    let b := ready.setWriter { Writer.start with op := .scrubRead 0, job := some ⟨.patrol, 0, .readSlot⟩ }
    let held := (inState .heat).setWriter { b.writer with protection := ⟨⟨some 0, some 0, 150⟩, ⟨none, none, 0⟩⟩ }
    s.on = true ∧ s.array.wf = true ∧ s.writer.op = .readoutRead 95 true ∧ s.link.stream = some ⟨7, 95, 1, 1⟩ ∧
    b.writer.op = .scrubRead 0 ∧ b.writer.job = some ⟨.patrol, 0, .readSlot⟩ ∧ ready.mains.state = .present ∧
    held.writer.op = .scrubRead 0 ∧ (held.writer.protection.get .a).openSlot = some 0 ∧
    (held.tracker .a).state.active = true ∧ held.capturing = false ∧ (held.tracker .a).programme = some prog := by decide

theorem witness_LoadTemperatureEstimate : context.programme = some prog ∧
    0 < Settings.default.halving prog.loadClass ∧ 1500 = 1 * Settings.default.halving prog.loadClass + 600 ∧
    600 < Settings.default.halving prog.loadClass ∧ -10 ≤ context.inlet ∧ context.exhaustUsed ≤ 150 := by decide

theorem witness_PlanFigures : context.paid ≤ 21600 ∧ context.mark = .none ∧ context.programme = some prog ∧
    14400 ≤ Settings.default.abandon ∧ Settings.default.abandon < 14401 ∧
    ({ context with mark := .orphan } : Context).mark = .orphan ∧ 5699 + 1500 < prog.limit ∧ prog.limit ≤ 5700 + 1500 := by
  decide

theorem witness_PlanQueryAndDiscard :
    let s := (inState .pending).modStall .a fun _ => ⟨true, 1500, .firm, 0⟩
    s.takesMessages = true ∧ (s.tracker .a).state.busy = false ∧ (s.tracker .a).state = .pending ∧
    (s.tracker .a).context = some context ∧ s.planStall .a context = some 1500 ∧
    (s.modStall .a fun _ => ⟨true, 1048575, .firm, 0⟩).planStall .a context = none ∧
    ((inState .heat).tracker .a).state ≠ .pending := by decide

theorem witness_PlanAdoptAccepted : (inState .pending).takesMessages = true ∧
    ((inState .pending).tracker .a).state = .pending ∧ (inState .pending).lossInProgress = false ∧
    (mainsIs .qualifying (inState .pending)).lossInProgress = true := by decide

theorem witness_AdoptRecordCompletes :
    let s := writing ⟨.a, .adopt plan1 (some 78) 24 0 false⟩ ((inState .adopting).setLink
      { ready.link with inFlight := some ⟨0x09, 7, .adopted .a⟩ })
    let crease : Context := { context with phase := .anticrease, elapsed := 3000 }
    let orphan : Context := { context with programme := none, mark := .orphan }
    s.on = true ∧ s.array.wf = true ∧ (s.tracker .a).state = .adopting ∧ (s.tracker .a).context = some context ∧
    context.programme = some prog ∧ s.frozen = false ∧ s.mains.state ≠ .lost ∧
    s.link.inFlight = some ⟨0x09, 7, .adopted .a⟩ ∧
    (planFor Settings.default crease (some 1500)).kind = .resumeAnticrease ∧ (s.line .a).doorOpen = false ∧ 0 < prog.period ∧
    (planFor Settings.default orphan (some 1500)).kind = .holdOrphan := by decide

theorem witness_AdoptRecordCompletes_loss :
    let s := lossOn (writing ⟨.a, .adopt plan1 (some 78) 24 0 false⟩ ((inState .adopting).setLink
      { ready.link with inFlight := some ⟨0x09, 7, .adopted .a⟩ }))
    let frozen := (s.setFrozen true).setMains { s.mains with state := .faltering }
    s.on = true ∧ s.array.wf = true ∧ (s.tracker .a).state = .adopting ∧ (s.tracker .a).context = some context ∧
    context.programme = some prog ∧ plan1.kind = .resumeHeat ∧ s.capturing = true ∧ s.capture.ended = false ∧
    s.capture.reason = some .sag ∧ s.mains.state = .lost ∧ frozen.frozen = true ∧ frozen.mains.state ≠ .lost ∧
    s.link.inFlight = some ⟨0x09, 7, .adopted .a⟩ := by decide

/-- A FINISH plan that meets a loss. -/
theorem witness_AdoptRecordCompletes_finish :
    let crease : Context := { context with phase := .anticrease, elapsed := prog.limit }
    let l := planFor Settings.default crease (some 1500)
    let s := lossOn (writing ⟨.a, .adopt l (some 78) 24 0 false⟩ (inState .adopting))
    l.kind = .finish ∧ s.mains.state = .lost ∧ (s.tracker .a).state = .adopting ∧ (s.tracker .a).context = some context ∧
    context.programme = some prog ∧ s.writer.queue = [] := by decide

/-- R144, R171: an ADOPT that completes after a sag-loss is written as a LOSS at once. -/
theorem test_adopt_meets_a_loss :
    let t := after (.recordAttemptDone .matched true) (lossOn (writing ⟨.a, .adopt plan1 (some 78) 24 0 false⟩
      (inState .adopting)))
    (t.tracker .a).state = .pending ∧ (match t.writer.op with | .record a => a.req.data.isLoss | _ => false) = true := by
  decide +kernel

theorem witness_AdmissionAndDispatch :
    let f := replyFrame 1 1 .ok []
    messageFields (.restart 7) = some (0x0E, 7) ∧ ready.on = true ∧ ready.takesMessages = true ∧
    2 ≤ ({ ready.link with waiting := [f, f] } : Link).waitingReplies ∧ State.reset.scanning = true ∧
    State.reset.link.waitingReplies < 2 ∧ contentOf 0x0F [] = .unknownKind ∧ contentOf 0x00 [] = .unknownKind ∧
    contentOf 0x0D [] = .badLength ∧ contentOf 0x01 [0] = .badLength := by decide

theorem witness_MessageFramesArrive : (Message.telemetry 1 255 (-128)).wf = true ∧
    (Message.settingsWrite (List.replicate 18 (22, 65535))).wf = true ∧ ([] : List Byte).length ≤ 56 ∧
    (List.replicate 56 (0xFF : Byte)).length ≤ 56 ∧
    (ready.setLink { ready.link with receiver := .lead }).link.receiver = .lead ∧ ready.on = true := by decide

/-- R184, R189: the bytes of a PAY frame do what PAY does. -/
theorem test_frame_pays : let s := (inState .heat).setLink { ready.link with receiver := .lead }
    let t := after (.frameReceived (frameBytes 0x03 7 [0, 60, 0])) s
    (t.tracker .a).paid = 960 ∧ t.link.receiver = .hunt := by decide +kernel

theorem witness_LineEventsAndErrorCounters :
    let s := ready.setLink { ready.link with
      receiver := .body
      buffer := [3, 7, 0, 0x55]
      check := 0x1234 }
    let f := replyFrame 1 1 .ok []
    let full := ready.setLink { ready.link with sending := some f, waiting := [f, f] }
    s.on = true ∧ s.link.receiver = .body ∧ s.link.buffer = [3, 7, byte ([] : List Byte).length] ++ [] ++ [0x55] ∧
    s.link.check.toNat ≠ (0x55 : Byte).toNat + 256 * (0x56 : Byte).toNat ∧ s.admits = true ∧ s.link.inFlight = none ∧
    ready.link.receiver = .hunt ∧ messageFields (.pay 1 0 60) = some (0x03, 1) ∧ full.on = true ∧
    2 ≤ full.link.waitingReplies := by decide

theorem witness_ReadingMessages : ready.admits = true ∧ ready.link.inFlight = none ∧ ready.takesMessages = true ∧
    State.reset.admits = true ∧ (95 < 96 ∧ 1 ≤ 1 ∧ 95 + 1 ≤ 96) := by decide

theorem witness_SentFramesGoOn :
    let f : TxFrame := replyFrame 1 1 .ok []
    let s := ready.setLink { ready.link with
      sending := some { f with stream := true }
      stream := some ⟨7, 3, 5, 2⟩ }
    s.on = true ∧ s.link.sending = some { f with stream := true } ∧ f.restart = false ∧ f.demand = none ∧
    s.link.stream = some ⟨7, 3, 5, 2⟩ ∧ ready.link.sending = none := by decide

theorem witness_SettingsWriteTakesThePrefix : ready.takesMessages = true ∧ ready.writer.queue = [] ∧
    ready.capturing = false ∧ (ready.tracker .a).state = .free ∧ (ready.tracker .b).state = .free ∧
    (trySettings ready.settings 0 [(6, 90), (5, 75), (19, 200), (21, 50)]).2 = (2 + 1, some 3) ∧
    (trySettings ready.settings 0 [(23, 0)]).2.1 = 0 ∧ (trySettings ready.settings 0 [(0, 0)]).2.1 = 0 := by decide

theorem witness_RestartAndTheQueue :
    let s := (inState .opening).setWriter { Writer.start with queue := [⟨.a, .openCycle prog false⟩] }
    let adopts := (inState .adopting).setWriter { Writer.start with queue := [⟨.a, .adopt plan1 (some 78) 24 0 false⟩] }
    let standing := (inState .heat).setCapture { Capture.start with state := .standing }
    (inState .heat).takesMessages = true ∧ (inState .heat).capturing = false ∧ (inState .heat).writer.queue = [] ∧
    ((inState .heat).tracker .a).snapshot = none ∧ standing.takesMessages = true ∧ standing.capture.state = .standing ∧
    s.writer.queue = [⟨.a, .openCycle prog false⟩] ∧
    (s.setLink { s.link with inFlight := some ⟨0x02, 7, .opened .a⟩ }).link.inFlight = some ⟨0x02, 7, .opened .a⟩ ∧
    adopts.writer.queue = [⟨.a, .adopt plan1 (some 78) 24 0 false⟩] ∧
    (adopts.setLink { s.link with inFlight := some ⟨0x09, 7, .adopted .a⟩ }).link.inFlight
      = some ⟨0x09, 7, .adopted .a⟩ := by decide

/-- A capture has the array, with what the change puts before the writer. -/
def captures (rail : Bool) (losses : List LossEntry) (f : Writer → Writer) : State :=
  ((waits f).setCapture { Capture.start with state := .finishing, window := true, losses := losses }).setRail rail

theorem witness_RestartAndTheQueue_service :
    let close : Request := ⟨.b, .close .stop 0 0⟩
    let loss : LossEntry := ⟨.a, .mains, 150, body⟩
    let carries := captures true [loss] fun w => { w with carried := some (close, 1) }
    let closes := captures true [loss] fun w => { w with queue := [close] }
    let behind := captures true [] fun w => { w with queue := [⟨.b, .checkpoint .rideThrough body⟩, close] }
    let refused := captures false [loss] fun w => { w with carried := some (close, 1) }
    let ends := (captures true [] id).setCapture { Capture.start with state := .writing, restart := true }
    carries.writer.job = none ∧ carries.writer.op = .idle ∧ carries.rail = true ∧ carries.writer.counter = some 1 ∧
    carries.writer.target none = some 0 ∧ carries.writer.mapDue = .no ∧ carries.writer.carried = some (close, 1) ∧
    closes.writer.carried = none ∧ closes.writer.queue = [] ++ close :: [] ∧ close.data.isClose = true ∧
    behind.writer.queue = [⟨.b, .checkpoint .rideThrough body⟩] ++ close :: [] ∧ (captureNext behind).writer.queue = [] ∧
    (captures true [loss] id).capture.losses = [loss] ∧ (captures true [loss] id).writer.queue = [] ∧
    (captures true [] fun w => { w with mapDue := .second }).writer.mapDue ≠ .no ∧
    refused.rail = false ∧ refused.writer.carried = some (close, 1) ∧
    ends.capture.restart = true ∧ ends.capture.losses = [] ∧ ends.writer.queue = [] ∧ ends.writer.mapDue = .no := by decide

theorem witness_SupplyAndResetEvents :
    let s := writing ⟨.a, .loss .mains body⟩ (inState .heat)
    let off := s.setSupply ⟨false, true⟩
    s.supply.powered = true ∧ s.supply.resetHeld = false ∧ s.array.wf = true ∧ off.supply.powered = false ∧
    off.supply.resetHeld = true ∧ ready.writer.op = .idle ∧ (doing (.mapWrite false) ready).writer.op = .mapWrite false := by
  decide

theorem witness_StepRunsTheFrontCommand : (ready.setPending [.stallTick]).pending = [.stallTick] ∧ ready.pending = [] := by
  decide

/-- Every limit is reached by some state. -/
theorem witness_StepRunsTheFrontCommand_limits :
    let pays := turning ((inState .heat).modTracker .a fun t => { t with paidAcc := 1000, periodic := 60000 })
    let rests := (inState .anticrease).modSchedule .a fun c => { c with acc := 1000 }
    let air (a : Airflow) : State := (turning (inState .heat)).modOutput .a fun o =>
      { o with airflow := a, proving := 3000, airTimer := 30000 }
    let sag := (mainsIs .sag ready).setMains { (mainsIs .sag ready).mains with sag := some (1000 * ready.settings.sagLossS) }
    pays.on = true ∧ pays.paidCounts .a = true ∧ 0 < (pays.tracker .a).paid ∧ 1000 ≤ (pays.tracker .a).paidAcc ∧
    pays.periodicCounts .a = true ∧ 1000 * pays.settings.ckptInterval ≤ (pays.tracker .a).periodic ∧
    rests.elapsedCounts .a = true ∧ 1000 ≤ (rests.schedule .a).acc ∧
    ((air .proving).output .a).airflow = .proving ∧ 3000 ≤ ((air .proving).output .a).proving ∧
    ((air .timing).output .a).airflow = .timing ∧ 30000 ≤ ((air .timing).output .a).airTimer ∧
    (((inState (.held .limit)).modTracker .a fun t => { t with held := some (1000 * ready.settings.guardLimit) }).tracker
      .a).held = some (1000 * ready.settings.guardLimit) ∧
    ((ready.modOutput .a fun o => { o with guard := some (1000 * ready.settings.guardLimit) }).output .a).guard
      = some (1000 * ready.settings.guardLimit) ∧
    (ready.setSilence ⟨true, some 0, false⟩).silence.left = some 0 ∧
    (ready.setArbiter ⟨[], [], some (1000 * ready.settings.stagger)⟩).arbiter.stagger = some (1000 * ready.settings.stagger) ∧
    sag.mains.state = .sag ∧ sag.mains.sag = some (1000 * sag.settings.sagLossS) ∧
    2000 ≤ (ready.setScrub { ready.scrub with timer := 2000 }).scrub.timer := by decide

theorem witness_StepKeepsTheArrayForm : ready.array.wf = true ∧ step ready = .next (tick ready) := ⟨by decide, rfl⟩

/-- With `witness_recordsFit`. -/
theorem witness_StepKeepsTheArrayForm_queue :
    let again : Request := ⟨.a, .openCycle prog true⟩
    let first : Request := ⟨.a, .checkpoint .pay body⟩
    let close : Request := ⟨.a, .close .stop 900 0⟩
    first.checkpointOf .a = true ∧ again.reemitOf .a = true ∧ close.data.isClose = true ∧ close.closeOf .a = true ∧
    takeCheckpoint first [⟨.b, .close .stop 0 0⟩, first] = [⟨.b, .close .stop 0 0⟩, first] ∧
    takeClose close [again, first] = [close] := by decide

end Sys2Proof.Tests
end

section
/-! SUPPORT. What one grant of the arbiter does, and what settling the outputs can do to an anti-crease schedule (R36, R70). -/

namespace Sys2Proof.Machine

variable {s t u : State} {l : Load} {p q : Pocket}

/-! ## The start of a tumble (R36) -/

/-- The schedule once its waiting tumble has started. -/
def Schedule.started (tumbleLen : Nat) (c : Schedule) : Schedule :=
  { c with tumble := .running, tumbleEnd := some (tumbleEndFrom c.elapsed tumbleLen c.boundary) }

/-- A tumble of the pocket waits for its motor. -/
def State.tumbleWaits (s : State) (p : Pocket) : Prop :=
  (s.tracker p).state = .anticrease ∧ (s.schedule p).tumble = .due

theorem startTumble_of_waits (h : s.tumbleWaits p) :
    startTumble p s = s.modSchedule p (·.started (s.tracker p).tumbleLen) := if_pos h

theorem startTumble_schedule_of_waits (h : s.tumbleWaits p) :
    (startTumble p s).schedule p = (s.schedule p).started (s.tracker p).tumbleLen := by
  rw [startTumble_of_waits h, State.schedule_modSchedule]

theorem startTumble_of_not_waits (h : ¬ s.tumbleWaits p) : startTumble p s = s := if_neg h

theorem startTumble_schedule_ne (h : q ≠ p) : (startTumble p s).schedule q = s.schedule q := by
  unfold startTumble
  split
  · exact State.schedule_modSchedule_ne _ _ h
  · rfl

/-- The start of a tumble reads the trackers and the schedules alone. -/
theorem startTumble_schedules_congr (p : Pocket) (ht : t.trackers = s.trackers) (hc : t.schedules = s.schedules) :
    (startTumble p t).schedules = (startTumble p s).schedules := by
  unfold startTumble
  rw [State.tracker_congr ht, State.schedule_congr hc]
  split
  · rw [State.modSchedule_schedules, State.modSchedule_schedules, hc]
  · exact hc

/-! ## One grant (R70, R71) -/

theorem grantLoad_of_stage (h : l.item ≠ .motor) (s : State) :
    grantLoad l s
      = (s.setArbiter (s.arbiter.grant l s.settings.stagger)).modOutput l.pocket (·.withItem l.item true) := by
  rw [grantLoad, if_neg h, turnOn]
  split
  · contradiction
  · rfl

/-- The state after the shedding of a motor start, with the motor granted and its output on. -/
def motorGranted (l : Load) (s : State) : State :=
  ((revokeStages s.sheds s).setArbiter ((s.arbiter.revoke s.sheds).grant l s.settings.stagger)).modOutput l.pocket
    (·.withItem .motor true)

theorem revokeStages_arbiter (r : List Load) (s : State) : (revokeStages r s).arbiter = s.arbiter.revoke r := rfl

theorem grantLoad_of_motor (h : l.item = .motor) (s : State) :
    grantLoad l s = startTumble l.pocket (airflowAtTurnOn l.pocket (motorGranted l s)) := by
  have settings : (revokeStages s.sheds s).settings = s.settings := revokeStages_keeps _ s .settings (by decide)
  rw [grantLoad, if_pos h, turnOn]
  rw [h, revokeStages_arbiter, settings]
  rfl

theorem motorGranted_keeps (l : Load) (s : State) : KeepsBut [.outputs, .arbiter] s (motorGranted l s) :=
  ((revokeStages_keeps _ s).trans (keeps_setArbiter _ (by decide))).trans (keeps_modOutput _ _ (by decide))

theorem grantLoad_schedules_of_stage (h : l.item ≠ .motor) (s : State) : (grantLoad l s).schedules = s.schedules := by
  rw [grantLoad_of_stage h]
  rfl

theorem grantLoad_schedules_of_motor (h : l.item = .motor) (s : State) :
    (grantLoad l s).schedules = (startTumble l.pocket s).schedules := by
  have keeps : KeepsBut [.outputs, .arbiter] s (airflowAtTurnOn l.pocket (motorGranted l s)) :=
    (motorGranted_keeps l s).trans ((airflowAtTurnOn_keeps _ _).mono (by decide))
  rw [grantLoad_of_motor h]
  exact startTumble_schedules_congr _ (keeps .trackers (by decide)) (keeps .schedules (by decide))

theorem grantLoad_arbiter_of_stage (h : l.item ≠ .motor) (s : State) :
    (grantLoad l s).arbiter = s.arbiter.grant l s.settings.stagger := by
  rw [grantLoad_of_stage h]
  rfl

theorem grantLoad_arbiter_of_motor (h : l.item = .motor) (s : State) :
    (grantLoad l s).arbiter = (s.arbiter.revoke s.sheds).grant l s.settings.stagger := by
  rw [grantLoad_of_motor h]
  exact startTumble_keeps l.pocket _ .arbiter (by decide)

/-! ## What settling can do to a schedule -/

/-- From `s` to `t` the pocket's schedule is as it was, or its waiting tumble has started. -/
def MayStartTumble (p : Pocket) (s t : State) : Prop :=
  t.schedule p = s.schedule p ∨
    s.tumbleWaits p ∧ t.schedule p = (s.schedule p).started (s.tracker p).tumbleLen

/-- A tumble that has started does not wait, so that it starts once. -/
theorem MayStartTumble.trans (trackers : t.trackers = s.trackers) (h : MayStartTumble p s t)
    (k : MayStartTumble p t u) : MayStartTumble p s u := by
  have tracker : t.tracker p = s.tracker p := State.tracker_congr trackers p
  rcases h with same | ⟨waits, started⟩
  · unfold MayStartTumble State.tumbleWaits at k ⊢
    rwa [same, tracker] at k
  · rcases k with same | ⟨again, _⟩
    · exact .inr ⟨waits, same.trans started⟩
    · have running : (t.schedule p).tumble = .running := by rw [started]; rfl
      exact absurd (running.symm.trans again.2) (by decide)

theorem startTumble_mayStart (p q : Pocket) (s : State) : MayStartTumble q s (startTumble p s) := by
  by_cases e : q = p
  · subst e
    by_cases waits : s.tumbleWaits q
    · exact .inr ⟨waits, startTumble_schedule_of_waits waits⟩
    · exact .inl (by rw [startTumble_of_not_waits waits])
  · exact .inl (startTumble_schedule_ne e)

theorem grantLoad_mayStart (l : Load) (p : Pocket) (s : State) : MayStartTumble p s (grantLoad l s) := by
  by_cases motor : l.item = .motor
  · have e : (grantLoad l s).schedule p = (startTumble l.pocket s).schedule p :=
      State.schedule_congr (grantLoad_schedules_of_motor motor s) p
    unfold MayStartTumble
    rw [e]
    exact startTumble_mayStart _ p s
  · exact .inl (State.schedule_congr (grantLoad_schedules_of_stage motor s) p)

theorem testHead_mayStart (fuel : Nat) (p : Pocket) (s : State) : MayStartTumble p s (testHead fuel s) := by
  induction fuel generalizing s with
  | zero => exact .inl rfl
  | succ n ih =>
    unfold testHead
    split
    · exact .inl rfl
    · next l _ _ =>
      split
      · exact (grantLoad_mayStart l p s).trans (grantLoad_keeps l s .trackers (by decide)) (ih _)
      · exact .inl rfl

/-- Settling leaves a schedule as it is, or starts its waiting tumble. -/
theorem settle_mayStart (p : Pocket) (s : State) : MayStartTumble p s (settleOutputs s) := by
  have keeps : KeepsBut [.outputs, .arbiter] s (forPockets requests (forPockets lapses s)) :=
    (keeps_forPockets lapses_keeps s).trans ((keeps_forPockets requests_keeps _).mono (by decide))
  exact MayStartTumble.trans (keeps .trackers (by decide)) (.inl (State.schedule_congr (keeps .schedules (by decide)) p))
    (testHead_mayStart _ p _)

theorem settle_schedule_of_not_waits (h : ¬ s.tumbleWaits p) : (settleOutputs s).schedule p = s.schedule p :=
  (settle_mayStart p s).resolve_right fun k => h k.1

theorem settle_schedule_of_not_due (h : (s.schedule p).tumble ≠ .due) : (settleOutputs s).schedule p = s.schedule p :=
  settle_schedule_of_not_waits fun waits => h waits.2

@[simp] theorem settle_boundary (s : State) (p : Pocket) :
    ((settleOutputs s).schedule p).boundary = (s.schedule p).boundary := by
  rcases settle_mayStart p s with e | ⟨_, e⟩
  · rw [e]
  · rw [e]; rfl

@[simp] theorem settle_skipped (s : State) (p : Pocket) :
    ((settleOutputs s).schedule p).skipped = (s.schedule p).skipped := by
  rcases settle_mayStart p s with e | ⟨_, e⟩
  · rw [e]
  · rw [e]; rfl

/-- Settling neither begins nor ends a rest. -/
@[simp] theorem settle_rests (s : State) (p : Pocket) :
    ((settleOutputs s).schedule p).tumble = .rest ↔ (s.schedule p).tumble = .rest := by
  rcases settle_mayStart p s with e | ⟨waits, e⟩
  · rw [e]
  · rw [e, waits.2]
    exact iff_of_false (by simp [Schedule.started]) (by decide)

end Sys2Proof.Machine
end

section
/-! SUPPORT. The anti-crease second: the tests of a schedule branch by branch, the entry to CLOSING from ANTICREASE, and the
obligation O13 (R33 to R41). -/

namespace Sys2Proof.Machine

variable {s : State} {p : Pocket} {c : Schedule} {period len : Nat} {on : Bool}

/-! ## The tests of a schedule (R35, R37, R38, R41) -/

/-- A tumble at rest becomes due at a boundary, unless the programme has none. -/
theorem tests_of_rest (rest : c.tumble = .rest) (h : c.boundary = some c.elapsed) :
    c.tests period len on
      = { c with boundary := some (c.elapsed + period), tumble := if len = 0 then .rest else .due } := by
  simp [Schedule.tests, Schedule.atBoundary, rest, h]

/-- A tumble that still waits at a boundary is skipped. -/
theorem tests_of_due (due : c.tumble = .due) (h : c.boundary = some c.elapsed) :
    c.tests period len on
      = { c with boundary := some (c.elapsed + period), skipped := min 65535 (c.skipped + 1) } := by
  simp [Schedule.tests, Schedule.atBoundary, due, h, raise, Config.countMax]

theorem tests_at_tumbleEnd (running : c.tumble = .running) (h : c.tumbleEnd = some c.elapsed) :
    c.tests period len on = c.atTumbleEnd period len on := if_pos ⟨running, h⟩

theorem atTumbleEnd_within (h : c.boundary ≠ some c.elapsed) :
    c.atTumbleEnd period len on = { c with tumble := .rest, tumbleEnd := none } := if_neg h

theorem atTumbleEnd_of_motor (h : c.boundary = some c.elapsed) (motor : on = true) :
    c.atTumbleEnd period len on
      = { c with
          boundary := some (c.elapsed + period)
          tumbleEnd := some (min (c.elapsed + len) (c.elapsed + period)) } := by
  simp [Schedule.atTumbleEnd, h, motor]

theorem atTumbleEnd_of_no_motor (h : c.boundary = some c.elapsed) (motor : on = false) :
    c.atTumbleEnd period len on
      = { c with boundary := some (c.elapsed + period), tumble := .due, tumbleEnd := none } := by
  simp [Schedule.atTumbleEnd, h, motor]

/-- The tests leave the position where it is. -/
theorem tests_elapsed (c : Schedule) (period len : Nat) (on : Bool) : (c.tests period len on).elapsed = c.elapsed := by
  unfold Schedule.tests Schedule.atTumbleEnd Schedule.atBoundary
  dsimp only
  split
  · split
    · split <;> rfl
    · rfl
  · split
    · split <;> rfl
    · rfl

/-! ## Entry to CLOSING (R2, R23, R32) -/

theorem otherPocket_ne (p : Pocket) : otherPocket p ≠ p := by cases p <;> decide

@[simp] theorem enterState_trackers (p : Pocket) (st : PocketState) (s : State) :
    (enterState p st s).trackers = s.trackers.modify p (·.enter st) := by
  unfold enterState
  dsimp only
  split <;> rfl

@[simp] theorem enterState_active (p : Pocket) (st : PocketState) (s : State) :
    (enterState p st s).alwaysOn.active.get p = st.flagged := Pair.get_set ..

/-- A pocket that leaves ANTICREASE drops its schedule. -/
theorem enterState_schedule_of_leaves {st : PocketState} (was : (s.tracker p).state = .anticrease)
    (leaves : st ≠ .anticrease) : (enterState p st s).schedule p = (s.schedule p).dropped := by
  rw [enterState, if_pos ⟨was, leaves⟩]
  exact State.schedule_modSchedule ..

/-- A CLOSE request clears the periodic count and takes its place in the queue. -/
theorem enqueue_close (p : Pocket) (r : CloseReason) (paid elapsed : Nat) (s : State) :
    enqueue ⟨p, .close r paid elapsed⟩ s
      = (s.modTracker p fun t => { t with periodic := 0 }).setWriter
          { s.writer with queue := takeClose ⟨p, .close r paid elapsed⟩ s.writer.queue } := rfl

section Closing

variable (p : Pocket) (r : CloseReason) (paid elapsed : Nat) (s : State)

@[simp] theorem enterClosing_state : ((enterClosing p r paid elapsed s).tracker p).state = .closing r := by
  simp [enterClosing, enqueue_close, State.tracker, Tracker.enter]

@[simp] theorem enterClosing_otherTracker :
    (enterClosing p r paid elapsed s).tracker (otherPocket p) = s.tracker (otherPocket p) := by
  simp [enterClosing, enqueue_close, State.tracker, Pair.get_modify_ne _ _ (otherPocket_ne p), dropLoss]

@[simp] theorem enterClosing_active : (enterClosing p r paid elapsed s).alwaysOn.active.get p = false := by
  simp [enterClosing, enqueue_close, PocketState.flagged]

@[simp] theorem enterClosing_queue :
    (enterClosing p r paid elapsed s).writer.queue = takeClose ⟨p, .close r paid elapsed⟩ s.writer.queue := by
  have writer : (enterState p (.closing r) (dropLoss p s)).writer = s.writer :=
    enterState_keeps p (.closing r) (dropLoss p s) .writer (by decide)
  simp [enterClosing, enqueue_close, writer]

end Closing

theorem enterClosing_schedule (r : CloseReason) (paid elapsed : Nat) {s : State} (h : (s.tracker p).state = .anticrease) :
    (enterClosing p r paid elapsed s).schedule p = (s.schedule p).dropped :=
  enterState_schedule_of_leaves (s := dropLoss p s) h (by simp)

theorem motorWanted_of_closing {r : CloseReason} (h : (s.tracker p).state = .closing r) : s.motorWanted p = false := by
  simp only [State.motorWanted, h]

theorem motorAllowed_of_not_wanted (h : s.motorWanted p = false) : s.motorAllowed p = false := by
  simp [State.motorAllowed, h]

/-! ## The anti-crease second (R33, R41) -/

/-- The schedule one second on. -/
def Schedule.second (c : Schedule) : Schedule := { c with elapsed := c.elapsed + 1, acc := 0 }

theorem modSchedule_modSchedule (p : Pocket) (f g : Schedule → Schedule) (s : State) :
    (s.modSchedule p f).modSchedule p g = s.modSchedule p fun c => g (f c) := by cases p <;> rfl

/-- The state as the limit is reached, before the pocket closes. -/
def limitReached (p : Pocket) (s : State) : State := s.modSchedule p fun c => c.second.atLimit

/-- The state below the limit, before the outputs settle. -/
def secondTested (p : Pocket) (s : State) : State :=
  s.modSchedule p fun c => c.second.tests (s.tracker p).period (s.tracker p).tumbleLen (s.output p).motor

@[simp] theorem limitReached_schedule (p : Pocket) (s : State) :
    (limitReached p s).schedule p = (s.schedule p).second.atLimit := State.schedule_modSchedule ..

@[simp] theorem secondTested_schedule (p : Pocket) (s : State) :
    (secondTested p s).schedule p
      = (s.schedule p).second.tests (s.tracker p).period (s.tracker p).tumbleLen (s.output p).motor :=
  State.schedule_modSchedule ..

theorem atLimit_elapsed (c : Schedule) : c.atLimit.elapsed = c.elapsed := by
  unfold Schedule.atLimit
  split <;> rfl

theorem atLimit_skipped (c : Schedule) :
    c.atLimit.skipped = if c.tumble = .due then min 65535 (c.skipped + 1) else c.skipped := by
  unfold Schedule.atLimit
  split <;> rfl

theorem anticreaseSecond_at_limit (h : (s.tracker p).limit ≤ (s.schedule p).elapsed + 1) :
    anticreaseSecond p s
      = settleOutputs (enterClosing p .limitEnd 0 ((s.schedule p).elapsed + 1) (limitReached p s)) := by
  simp only [anticreaseSecond, State.schedule_modSchedule, h, if_true, modSchedule_modSchedule, atLimit_elapsed]
  rfl

theorem anticreaseSecond_below_limit (h : (s.schedule p).elapsed + 1 < (s.tracker p).limit) :
    anticreaseSecond p s = settleOutputs (secondTested p s) := by
  simp only [anticreaseSecond, State.schedule_modSchedule, Nat.not_le.mpr h, if_false, modSchedule_modSchedule]
  rfl

/-- An anti-crease second of a running part, with its clock unfrozen, is one of the tracker and then the writer's service. -/
theorem exec_anticreaseSecond_of_counts (on : s.on = true) (thawed : s.frozen = false)
    (state : (s.tracker p).state = .anticrease) :
    exec (.anticreaseSecond p) s = .next (serve (anticreaseSecond p s)) := by
  have counts : s.elapsedCounts p = true := by simp [State.elapsedCounts, state, thawed]
  calc exec (.anticreaseSecond p) s
      = onMain (fun s => if s.elapsedCounts p then anticreaseSecond p s else s) s := rfl
    _ = .next (serve (anticreaseSecond p s)) := by rw [onMain_of_on _ on, if_pos counts]

/-- A motor of an ANTICREASE pocket at rest is off once the outputs have settled. -/
theorem settle_motor_off_of_rest (state : (s.tracker p).state = .anticrease) (h : (s.schedule p).tumble = .rest) :
    (settleOutputs s).loadOff ⟨p, .motor⟩ :=
  settle_motor_off s (motorAllowed_of_not_wanted (by simp [State.motorWanted, state, h]))

/-- The second that reaches the limit closes the cycle (R41). -/
theorem anticreaseSecond_closes (state : (s.tracker p).state = .anticrease)
    (limit : (s.tracker p).limit ≤ (s.schedule p).elapsed + 1) :
    let c := s.schedule p
    let u := anticreaseSecond p s
    (u.tracker p).state = .closing .limitEnd ∧ u.pocketOff p ∧ u.alwaysOn.active.get p = false ∧
      u.schedule p = c.second.atLimit.dropped ∧
      u.writer.queue = takeClose ⟨p, .close .limitEnd 0 (c.elapsed + 1)⟩ s.writer.queue ∧
      u.tracker (otherPocket p) = s.tracker (otherPocket p) := by
  intro c u
  let v := enterClosing p .limitEnd 0 (c.elapsed + 1) (limitReached p s)
  have settles : u = settleOutputs v := anticreaseSecond_at_limit limit
  have closing : (v.tracker p).state = .closing .limitEnd := enterClosing_state ..
  have no_tumble : ¬ v.tumbleWaits p := fun waits => by simp [State.tumbleWaits, closing] at waits
  rw [settles]
  refine ⟨?_, ?_, ?_, ?_, ?_, ?_⟩
  · rw [settle_tracker, closing]
  · exact settle_pocketOff _ (motorAllowed_of_not_wanted (motorWanted_of_closing closing))
  · rw [settle_alwaysOn]; exact enterClosing_active ..
  · rw [settle_schedule_of_not_waits no_tumble]
    exact (enterClosing_schedule (s := limitReached p s) _ _ _ state).trans (congrArg Schedule.dropped (limitReached_schedule p s))
  · rw [settle_writer]; exact enterClosing_queue ..
  · rw [settle_tracker]; exact enterClosing_otherTracker ..

/-- The second below the limit changes the schedules, the outputs and the arbiter alone. -/
theorem secondTested_settled_keeps (p : Pocket) (s : State) :
    KeepsBut [.schedules, .outputs, .arbiter] s (settleOutputs (secondTested p s)) :=
  (keeps_modSchedule _ _ (by decide)).trans ((settleOutputs_keeps _).mono (by decide))

end Sys2Proof.Machine

namespace Sys2Proof

open Machine

/-- Settles O13: at the limit the pocket enters CLOSING and its schedule is dropped; below it the schedule takes its tests and
the outputs settle, which can only start the tumble that waits. -/
theorem anticreaseSecond : Obligations.AnticreaseSecond := by
  intro p s on thawed state c e length
  have runs := exec_anticreaseSecond_of_counts on thawed state
  refine ⟨fun limit => ?_, fun below => ?_⟩
  · obtain ⟨closing, off, inactive, dropped, queue, other⟩ := anticreaseSecond_closes state limit
    refine ⟨_, runs, closing, off, inactive, ?_, ?_, ?_, ?_, ?_, queue, other,
      (anticreaseSecond_keeps p s).mono (by decide)⟩
    · rw [dropped]; exact atLimit_elapsed c.second
    · rw [dropped]; rfl
    · rw [dropped]; rfl
    · rw [dropped]; rfl
    · rw [dropped]; exact atLimit_skipped c.second
  · rw [anticreaseSecond_below_limit below] at runs
    let v := secondTested p s
    have tested : v.schedule p = c.second.tests length (s.tracker p).tumbleLen (s.output p).motor := secondTested_schedule p s
    refine ⟨settleOutputs v, runs, ?_, settle_trackers v, ?_, ?_, ?_, ?_, ?_, secondTested_settled_keeps p s⟩
    · rw [settle_schedule, tested, tests_elapsed]
      rfl
    · rintro ⟨rest, boundary⟩
      rw [tests_of_rest (c := c.second) rest boundary] at tested
      rw [settle_boundary, settle_skipped, settle_rests, tested]
      exact ⟨rfl, rfl, by simp⟩
    · rintro ⟨due, boundary⟩
      rw [tests_of_due (c := c.second) due boundary] at tested
      rw [settle_boundary, settle_skipped, Ne, settle_rests, tested]
      exact ⟨rfl, rfl, by simp [Schedule.second, due]⟩
    · rintro ⟨running, ends, within⟩
      rw [tests_at_tumbleEnd (c := c.second) running ends, atTumbleEnd_within within] at tested
      have rest : (v.schedule p).tumble = .rest := by rw [tested]
      rw [settle_schedule_of_not_due (by simp [rest]), tested]
      exact ⟨rfl, rfl, rfl, settle_motor_off_of_rest state rest⟩
    · rintro ⟨running, ends, boundary, motor⟩
      rw [tests_at_tumbleEnd (c := c.second) running ends, atTumbleEnd_of_motor boundary motor] at tested
      rw [settle_schedule_of_not_due (by simp [tested, Schedule.second, running]), tested]
      exact ⟨running, rfl, rfl, rfl⟩
    · rintro ⟨running, ends, boundary, motor⟩
      rw [tests_at_tumbleEnd (c := c.second) running ends, atTumbleEnd_of_no_motor boundary motor] at tested
      rw [settle_boundary, settle_skipped, Ne, settle_rests, tested]
      exact ⟨by simp, rfl, rfl⟩

end Sys2Proof
end

section
/-! SUPPORT. What a motor start sheds, how the shed stages queue again, the arbiter's test of its head, and the obligation O24
(R36, R52, R68 to R72). -/

namespace Sys2Proof.Machine

variable {s : State} {l : Load} {rest : List Load}

/-! ## Shedding (R71) -/

/-- What is shed comes first in the order of shedding, and what is kept back is nothing, or the motor fits. -/
theorem shedFrom_split (g : Settings) (load : Nat) (stages : List Load) :
    ∃ kept, stages = shedFrom g load stages ++ kept ∧
      (kept = [] ∨ load - (shedFrom g load stages).length * g.stageI + g.motorI ≤ g.budget) := by
  induction stages generalizing load with
  | nil => exact ⟨[], rfl, .inl rfl⟩
  | cons x stages ih =>
    by_cases fits : load + g.motorI ≤ g.budget
    · exact ⟨x :: stages, by simp [shedFrom, fits], .inr (by simp [shedFrom, fits])⟩
    · obtain ⟨kept, split, enough⟩ := ih (load - g.stageI)
      refine ⟨kept, ?_, enough.imp_right fun h => ?_⟩
      · rw [shedFrom, if_neg fits, List.cons_append, ← split]
      · rw [shedFrom, if_neg fits, List.length_cons, Nat.succ_mul]
        omega

/-- Without its last stage the shedding would not have been enough. -/
theorem budget_lt_of_shedFrom {g : Settings} {load : Nat} {stages newer : List Load} {last : Load}
    (h : shedFrom g load stages = newer ++ [last]) : g.budget < load - newer.length * g.stageI + g.motorI := by
  induction stages generalizing load newer with
  | nil => simp [shedFrom] at h
  | cons x stages ih =>
    by_cases fits : load + g.motorI ≤ g.budget
    · simp [shedFrom, fits] at h
    · rw [shedFrom, if_neg fits] at h
      cases newer with
      | nil => simpa using fits
      | cons y newer =>
        obtain ⟨_, later⟩ := List.cons.inj h
        have := ih later
        rw [List.length_cons, Nat.succ_mul]
        omega

theorem isStage_iff (l : Load) : l.isStage = decide (l.item ≠ .motor) := by
  rcases l with ⟨_, i⟩
  cases i <;> rfl

theorem stages_eq (granted : List Load) : granted.filter (·.item ≠ .motor) = granted.filter (·.isStage) :=
  List.filter_congr fun l _ => (isStage_iff l).symm

/-- The stages shed are the newest grants, and enough of them. -/
theorem sheds_split (s : State) : ∃ kept, s.arbiter.granted.filter (·.item ≠ .motor) = kept ++ s.sheds ∧
    (kept = [] ∨ loadOf s.settings s.arbiter.granted - s.sheds.length * s.settings.stageI + s.settings.motorI
      ≤ s.settings.budget) := by
  obtain ⟨kept, split, enough⟩ := shedFrom_split s.settings (loadOf s.settings s.arbiter.granted)
    (s.arbiter.granted.filter (·.isStage)).reverse
  refine ⟨kept.reverse, ?_, ?_⟩
  · rw [stages_eq, ← List.reverse_reverse (List.filter _ _), split, List.reverse_append]
    rfl
  · simpa [State.sheds] using enough

/-- No more stages are shed than the motor needs. -/
theorem budget_lt_of_sheds {oldest : Load} {others : List Load} (h : s.sheds = oldest :: others) :
    s.settings.budget
      < loadOf s.settings s.arbiter.granted - others.length * s.settings.stageI + s.settings.motorI := by
  have newest_first := congrArg List.reverse h
  rw [State.sheds, List.reverse_reverse, List.reverse_cons] at newest_first
  simpa using budget_lt_of_shedFrom newest_first

theorem sheds_stage {m : Load} (h : m ∈ s.sheds) : m.item ≠ .motor := by
  have : m ∈ s.arbiter.granted.filter (·.isStage) :=
    List.mem_reverse.mp (shedFrom_subset _ _ _ m (List.mem_reverse.mp h))
  simpa [isStage_iff] using (List.mem_filter.mp this).2

/-! ## The queue after a motor start (R72) -/

/-- A queued STAGE2 that goes behind its own shed STAGE1. -/
def movesBehind (shed : List Load) (m : Load) : Bool := m.item == .stage2 && shed.contains ⟨m.pocket, .stage1⟩

theorem revoke_moved (shed queue : List Load) :
    (queue.filter fun m => m.item == .stage2 && (shed.filter (·.item == .stage1)).contains ⟨m.pocket, .stage1⟩)
      = queue.filter (movesBehind shed) :=
  List.filter_congr fun m _ => by simp [movesBehind]

theorem filter_ne_eq_self {ms : List Load} (hl : l.item = .motor) (h : ∀ m ∈ ms, m.item ≠ .motor) :
    ms.filter (· != l) = ms :=
  List.filter_eq_self.mpr fun m hm => by
    simp only [bne_iff_ne, ne_eq]
    exact fun e => h m hm (e ▸ hl)

theorem movesBehind_stage {shed : List Load} {m : Load} (h : movesBehind shed m = true) : m.item ≠ .motor := by
  intro e
  simp [movesBehind, e] at h

/-- The queue after a motor at the head has been granted: the rest, then the shed STAGE1s and STAGE2s, then the queued STAGE2s
of the shed STAGE1s. -/
theorem revoke_grant_queue {a : Arbiter} {shed : List Load} (n : Nat) (hq : a.queue = l :: rest) (hl : l.item = .motor)
    (hs : ∀ m ∈ shed, m.item ≠ .motor) :
    ((a.revoke shed).grant l n).queue
      = (rest.filter fun m => m != l && !movesBehind shed m) ++ shed.filter (·.item = .stage1)
        ++ shed.filter (·.item = .stage2) ++ rest.filter (movesBehind shed) := by
  have head : movesBehind shed l = false := by simp [movesBehind, hl]
  have moved : a.queue.filter (movesBehind shed) = rest.filter (movesBehind shed) := by simp [hq, head]
  have stays : (a.queue.filter fun m => !(rest.filter (movesBehind shed)).contains m).filter (· != l)
      = rest.filter fun m => m != l && !movesBehind shed m := by
    rw [List.filter_filter, hq, List.filter_cons_of_neg (by simp)]
    exact List.filter_congr fun m hm => by simp [hm]
  simp only [Arbiter.grant, Arbiter.revoke, revoke_moved, moved, List.filter_append, stays]
  rw [filter_ne_eq_self hl fun m hm => hs m (List.mem_filter.mp hm).1,
    filter_ne_eq_self hl fun m hm => hs m (List.mem_filter.mp hm).1,
    filter_ne_eq_self hl fun m hm => movesBehind_stage (List.mem_filter.mp hm).2]
  rfl

theorem revoke_grant_granted (a : Arbiter) (shed : List Load) (n : Nat) :
    ((a.revoke shed).grant l n).granted = a.granted.filter (· ∉ shed) ++ [l] := by
  simp [Arbiter.grant, Arbiter.revoke]

theorem grant_stagger (a : Arbiter) (l : Load) {n : Nat} (h : 0 < n) : (a.grant l n).stagger = some 0 :=
  if_neg (Nat.ne_of_gt h)

/-! ## The outputs after a grant -/

theorem item_modOutput (s : State) (l m : Load) (on : Bool) :
    ((s.modOutput l.pocket (·.withItem l.item on)).output m.pocket).item m.item
      = if m = l then on else (s.output m.pocket).item m.item := by
  by_cases pocket : m.pocket = l.pocket
  · rw [pocket, State.output_modOutput, withItem_item]
    have same : l.item = m.item ↔ m = l := by
      rw [Load.mk.injEq]
      exact ⟨fun h => ⟨pocket, h.symm⟩, fun h => h.2.symm⟩
    simp only [same]
  · rw [State.output_modOutput_ne _ _ pocket, if_neg fun e => pocket (congrArg _ e)]

/-- Revoked loads are off, and every other output is as it was. -/
theorem revokeStages_item (r : List Load) (s : State) (m : Load) :
    ((revokeStages r s).output m.pocket).item m.item = ((s.output m.pocket).item m.item && decide (m ∉ r)) := by
  show ((r.foldl (fun s l => s.modOutput l.pocket (·.withItem l.item false)) s).output m.pocket).item m.item = _
  induction r generalizing s with
  | nil => simp
  | cons x r ih =>
    rw [List.foldl_cons, ih, item_modOutput]
    by_cases e : m = x <;> simp [e]

theorem motorGranted_item (h : l.item = .motor) (s : State) (m : Load) :
    ((motorGranted l s).output m.pocket).item m.item
      = if m = l then true else (s.output m.pocket).item m.item && decide (m ∉ s.sheds) := by
  rw [motorGranted, ← h, item_modOutput, ← revokeStages_item]
  rfl

theorem airflowAtTurnOn_item (p : Pocket) (s : State) (m : Load) :
    ((airflowAtTurnOn p s).output m.pocket).item m.item = (s.output m.pocket).item m.item := by
  rcases m with ⟨q, i⟩
  cases p <;> cases q <;> cases i <;> rfl

theorem grantLoad_item_of_motor (h : l.item = .motor) (s : State) (m : Load) :
    ((grantLoad l s).output m.pocket).item m.item
      = (decide (m = l) || ((s.output m.pocket).item m.item && decide (m ∉ s.sheds))) := by
  have outputs (t : State) : (startTumble l.pocket t).output m.pocket = t.output m.pocket :=
    State.output_congr (startTumble_keeps _ _ .outputs (by decide)) _
  rw [grantLoad_of_motor h, outputs, airflowAtTurnOn_item, motorGranted_item h]
  by_cases e : m = l <;> simp [e]

theorem brokenAirflow_eq (s : State) (p : Pocket) :
    s.brokenAirflow p = if (s.tracker p).state = .heat ∧ 0 < (s.tracker p).level then .timing else .unmade := by
  simp [State.brokenAirflow, State.heatRequested]

/-- A granted motor's airflow begins to prove, or to time when its pocket asks for heat (R52). -/
theorem grantLoad_airflow_of_motor (h : l.item = .motor) (s : State) :
    let o := (grantLoad l s).output l.pocket
    o.airflow = (if (s.line l.pocket).airMade then .proving else s.brokenAirflow l.pocket) ∧
      o.proving = 0 ∧ o.airTimer = 0 := by
  intro o
  have keeps := motorGranted_keeps l s
  have outputs : o = (airflowAtTurnOn l.pocket (motorGranted l s)).output l.pocket := by
    have := startTumble_keeps l.pocket (airflowAtTurnOn l.pocket (motorGranted l s)) .outputs (by decide)
    exact (congrArg (fun t => t.output l.pocket) (grantLoad_of_motor h s)).trans (State.output_congr this _)
  have line : (motorGranted l s).line l.pocket = s.line l.pocket := State.line_congr (keeps .lines (by decide)) _
  have broken : (motorGranted l s).brokenAirflow l.pocket = s.brokenAirflow l.pocket := by
    rw [brokenAirflow_eq, brokenAirflow_eq, State.tracker_congr (keeps .trackers (by decide))]
  rw [outputs, airflowAtTurnOn, State.output_modOutput, line, broken]
  exact ⟨rfl, rfl, rfl⟩

/-! ## The test of the head (R69, R70) -/

/-- A stage can be granted once the stagger timer is ELAPSED (R69). -/
def State.stageFits (s : State) (l : Load) : Prop :=
  s.mains.state = .present ∧ loadOf s.settings s.arbiter.granted + s.settings.stageI ≤ s.settings.budget ∧
    (l.item = .stage2 → ⟨l.pocket, .stage1⟩ ∈ s.arbiter.granted)

theorem carriesMotors_iff (m : MainsState) : m.carriesMotors = true ↔ m = .present ∨ m = .sag := by
  cases m <;> simp [MainsState.carriesMotors]

theorem grantable_motor_iff (elapsed : s.staggerElapsed = true) (h : l.item = .motor) :
    s.grantable l = true ↔ s.mains.state = .present ∨ s.mains.state = .sag := by
  simp [State.grantable, elapsed, h, carriesMotors_iff]

theorem grantable_stage_iff (elapsed : s.staggerElapsed = true) (h : l.item ≠ .motor) :
    s.grantable l = true ↔ s.stageFits l := by
  unfold State.grantable State.stageFits
  cases item : l.item with
  | motor => exact absurd item h
  | stage1 => simp [elapsed]
  | stage2 => simp [elapsed, and_assoc]

theorem testHead_of_not_grantable (n : Nat) (hq : s.arbiter.queue = l :: rest) (h : ¬ s.grantable l = true) :
    testHead n s = s := by
  cases n with
  | zero => rfl
  | succ n => simp only [testHead, hq, h, Bool.false_eq_true, if_false]

theorem testHead_of_not_elapsed (n : Nat) (h : s.staggerElapsed = false) : testHead n s = s := by
  cases n with
  | zero => rfl
  | succ n =>
    unfold testHead
    split
    · rfl
    · rw [if_neg (by simp [State.grantable, h])]

/-- A grant restarts the stagger timer, whose interval is not over at once (R68). -/
theorem grantLoad_arbiter_stagger (l : Load) (h : 0 < s.settings.stagger) : (grantLoad l s).arbiter.stagger = some 0 := by
  by_cases motor : l.item = .motor
  · rw [grantLoad_arbiter_of_motor motor, grant_stagger _ _ h]
  · rw [grantLoad_arbiter_of_stage motor, grant_stagger _ _ h]

theorem grantLoad_staggerElapsed (l : Load) (h : 0 < s.settings.stagger) : (grantLoad l s).staggerElapsed = false := by
  have settings : (grantLoad l s).settings = s.settings := grantLoad_keeps l s .settings (by decide)
  simp only [State.staggerElapsed, grantLoad_arbiter_stagger l h, settings, decide_eq_false_iff_not]
  omega

/-- With a stagger interval above 0 one test grants the head alone. -/
theorem testHead_of_grantable (n : Nat) (hq : s.arbiter.queue = l :: rest) (h : s.grantable l = true)
    (interval : 0 < s.settings.stagger) : testHead (n + 1) s = grantLoad l s := by
  simp only [testHead, hq, h, if_true]
  exact testHead_of_not_elapsed n (grantLoad_staggerElapsed l interval)

/-! ## The stagger timer and what is settled -/

/-- The state with the stagger timer replaced. -/
def State.setStagger (v : Option Nat) (s : State) : State := s.setArbiter { s.arbiter with stagger := v }

section Stagger

variable (v : Option Nat) (p : Pocket) (i : Item) (s : State)

theorem refreshAirflow_setStagger : refreshAirflow p (s.setStagger v) = (refreshAirflow p s).setStagger v := by
  have output : (s.setStagger v).output p = s.output p := rfl
  have broken : (s.setStagger v).brokenAirflow p = s.brokenAirflow p := rfl
  unfold refreshAirflow
  rw [output, broken]
  split
  · split <;> rfl
  · split <;> rfl
  · rfl

theorem lapseMotor_setStagger : lapseMotor p (s.setStagger v) = (lapseMotor p s).setStagger v :=
  (apply_ite (State.setStagger v) (s.motorAllowed p = true) s (dropLoad ⟨p, .motor⟩ s)).symm

theorem lapseStage_setStagger : lapseStage i p (s.setStagger v) = (lapseStage i p s).setStagger v :=
  (apply_ite (State.setStagger v) (s.inDemand p i = true) s (dropLoad ⟨p, i⟩ s)).symm

theorem lapses_setStagger : lapses p (s.setStagger v) = (lapses p s).setStagger v := by
  unfold lapses
  rw [refreshAirflow_setStagger, lapseMotor_setStagger, lapseStage_setStagger, lapseStage_setStagger]

theorem request_setStagger (a : Arbiter) (l : Load) :
    ({ a with stagger := v } : Arbiter).request l = { a.request l with stagger := v } := by
  have holds : ({ a with stagger := v } : Arbiter).holds l = a.holds l := rfl
  unfold Arbiter.request
  rw [holds]
  split
  · rfl
  · split
    · rfl
    · dsimp only
      split <;> rfl
    · rfl

theorem requestLoad_setStagger (l : Load) : requestLoad l (s.setStagger v) = (requestLoad l s).setStagger v :=
  congrArg (State.setArbiter · s) (request_setStagger v s.arbiter l)

theorem requests_setStagger : requests p (s.setStagger v) = (requests p s).setStagger v := by
  have one (b : Bool) (l : Load) (t : State) :
      (if b then requestLoad l (t.setStagger v) else t.setStagger v) = (if b then requestLoad l t else t).setStagger v := by
    rw [requestLoad_setStagger, apply_ite (State.setStagger v)]
  have allowed (t : State) : (t.setStagger v).motorAllowed p = t.motorAllowed p := rfl
  have demand (t : State) : (t.setStagger v).inDemand p = t.inDemand p := rfl
  unfold requests
  simp only [allowed, one, demand]

/-- What is settled does not depend on the stagger timer. -/
theorem settled_setStagger (h : s.settled) : (s.setStagger v).settled := by
  unfold State.settled forPockets at *
  simp only [lapses_setStagger, requests_setStagger, h]

end Stagger

/-! ## The end of the stagger interval (R68, R70) -/

theorem staggerElapses_of_settled (h : s.settled) : staggerElapses s = serveArbiter (s.setStagger none) :=
  congrArg serveArbiter (settled_setStagger none s h)

theorem staggerElapses_of_grantable (h : s.settled) (hq : s.arbiter.queue = l :: rest) (interval : 0 < s.settings.stagger)
    (grantable : (s.setStagger none).grantable l = true) : staggerElapses s = grantLoad l (s.setStagger none) := by
  have queue : (s.setStagger none).arbiter.queue = l :: rest := hq
  rw [staggerElapses_of_settled h, serveArbiter, queue]
  exact testHead_of_grantable _ queue grantable interval

theorem staggerElapses_of_not_grantable (h : s.settled) (hq : s.arbiter.queue = l :: rest)
    (not_grantable : ¬ (s.setStagger none).grantable l = true) : staggerElapses s = s.setStagger none := by
  rw [staggerElapses_of_settled h]
  exact testHead_of_not_grantable _ hq not_grantable

theorem staggerElapses_keeps (s : State) : KeepsBut [.arbiter, .outputs, .schedules] s (staggerElapses s) :=
  (keeps_setArbiter _ (by decide)).trans ((settleOutputs_keeps _).mono (by decide))

/-- A stage that is granted at the end of the interval (R70). -/
theorem stage_granted {v : State} (stage : l.item ≠ .motor) (interval : 0 < v.settings.stagger) :
    (grantLoad l v).arbiter = ⟨v.arbiter.queue.filter (· != l), v.arbiter.granted ++ [l], some 0⟩ ∧
      ((grantLoad l v).output l.pocket).item l.item = true ∧
      (grantLoad l v).output (otherPocket l.pocket) = v.output (otherPocket l.pocket) ∧
      (grantLoad l v).schedules = v.schedules := by
  refine ⟨?_, ?_, ?_, grantLoad_schedules_of_stage stage v⟩
  · rw [grantLoad_arbiter_of_stage stage, ← grant_stagger v.arbiter l interval]
    rfl
  · rw [grantLoad_of_stage stage, item_modOutput, if_pos rfl]
  · rw [grantLoad_of_stage stage]
    exact State.output_modOutput_ne _ _ (otherPocket_ne _)

/-- The arbiter after a motor at the head has been granted (R70 to R72). -/
theorem motor_granted_arbiter {v : State} (motor : l.item = .motor) (hq : v.arbiter.queue = l :: rest)
    (interval : 0 < v.settings.stagger) :
    (grantLoad l v).arbiter
      = ⟨(rest.filter fun m => m != l && !movesBehind v.sheds m) ++ v.sheds.filter (·.item = .stage1)
          ++ v.sheds.filter (·.item = .stage2) ++ rest.filter (movesBehind v.sheds),
        v.arbiter.granted.filter (· ∉ v.sheds) ++ [l], some 0⟩ := by
  rw [grantLoad_arbiter_of_motor motor, ← revoke_grant_queue v.settings.stagger hq motor fun m hm => sheds_stage hm,
    ← revoke_grant_granted _ _ v.settings.stagger, ← grant_stagger (v.arbiter.revoke v.sheds) l interval]

/-- A waiting tumble of a granted motor's pocket runs to its end (R36). -/
theorem motor_granted_schedule {v : State} (motor : l.item = .motor) (p : Pocket) :
    (grantLoad l v).schedule p = (startTumble l.pocket v).schedule p :=
  State.schedule_congr (grantLoad_schedules_of_motor motor v) p

end Sys2Proof.Machine

namespace Sys2Proof

open Machine

/-- Settles O24: a settled state stays settled as its stagger timer ends, so that only the arbiter's test of the head acts, and
the grant that it makes restarts the timer. -/
theorem staggerElapsedTestsTheHead : Obligations.StaggerElapsedTestsTheHead := by
  intro l rest s on settled queue interval a fits carried moved
  let v := s.setStagger none
  refine ⟨staggerElapses s, onMain_of_on staggerElapses on, ?_, ?_, ?_, staggerElapses_keeps s⟩
  · rintro ⟨stage, fit⟩
    rw [staggerElapses_of_grantable settled queue interval ((grantable_stage_iff rfl stage).mpr fit)]
    exact stage_granted (v := v) stage interval
  · intro barred
    have not_grantable : ¬ v.grantable l = true := by
      by_cases motor : l.item = .motor
      · rw [if_pos motor] at barred
        exact fun h => barred ((grantable_motor_iff (s := v) rfl motor).mp h)
      · rw [if_neg motor] at barred
        exact fun h => barred ((grantable_stage_iff (s := v) rfl motor).mp h)
    rw [staggerElapses_of_not_grantable settled queue not_grantable]
    exact ⟨rfl, rfl, rfl⟩
  · rintro ⟨motor, mains⟩
    rw [staggerElapses_of_grantable settled queue interval ((grantable_motor_iff rfl motor).mpr mains)]
    obtain ⟨kept, split, enough⟩ := sheds_split v
    obtain ⟨airflow, proving, airTimer⟩ := grantLoad_airflow_of_motor motor v
    have schedule := motor_granted_schedule (v := v) motor
    refine ⟨⟨kept, v.sheds, split, enough, fun _ _ h => budget_lt_of_sheds h,
      motor_granted_arbiter (v := v) motor queue interval, grantLoad_item_of_motor motor v⟩, ?_, proving, airTimer, ?_, ?_, ?_⟩
    · rw [airflow, brokenAirflow_eq]
      rfl
    · rw [schedule]
      exact startTumble_schedule_ne (otherPocket_ne _)
    · intro n state due boundary
      have ends : tumbleEndFrom (s.schedule l.pocket).elapsed (s.tracker l.pocket).tumbleLen (s.schedule l.pocket).boundary
          = min ((s.schedule l.pocket).elapsed + (s.tracker l.pocket).tumbleLen) n := by rw [boundary]; rfl
      rw [schedule, startTumble_schedule_of_waits (s := v) ⟨state, due⟩, ← ends]
      rfl
    · intro not_waiting
      have not_waits : ¬ v.tumbleWaits l.pocket := fun waits => not_waiting.elim (· waits.1) (· waits.2)
      rw [schedule, startTumble_of_not_waits not_waits]
      rfl

end Sys2Proof
end
